-- ==== Sys2Proof/Word.lean ====
section
/-! DEFINITION. The widths of the block's data (00_scope.md R9). -/

namespace Sys2Proof

/-- A byte: what one strobe pulse moves (20_memory.md R69). -/
abbrev Byte := BitVec 8

/-- A 16-bit request field or window bound (30_encoding.md R81, 10_state.md R28). -/
abbrev Half := BitVec 16

/-- A 16-bit colour value, one framebuffer cell (10_state.md R33). -/
abbrev Pixel := BitVec 16

/-- A 32-bit request field (30_encoding.md R81) or the status word (41_controller.md R171). -/
abbrev Word := BitVec 32

end Sys2Proof
end

