-- ==== Sys2Proof/Syntax.lean ====
section
/-! DEFINITION. The instructions: one constructor per row of opcode_table.json (30_encoding.md R80, R81, R100 to R127).

The 19 HREQ rows are the host operations; the 28 BUSCMD rows are the panel commands as the block issues them on its
bus (log 5). An operand is a field of the row's layout; a parameter that the rule fixes is no operand. -/

namespace Sys2Proof

/-- The axis of SETWIN (30_encoding.md R81). -/
inductive Axis where
  | col
  | row
  deriving DecidableEq, Repr

/-- The orientation matrix as six bits (10_state.md R27, 41_controller.md R165). -/
structure Orientation where
  my : Bool
  mx : Bool
  mv : Bool
  ml : Bool
  bgr : Bool
  mh : Bool
  deriving DecidableEq, Repr

inductive Instr where
  /-- RESET (R140). -/
  | reset (hw sw : Bool)
  /-- WRCMD (R142). -/
  | wrcmd (opcode : Byte) (params : List Byte)
  /-- RDREG (R145). -/
  | rdreg (opcode : Byte) (count : Word)
  /-- INIT (R160). -/
  | init
  /-- SETPIXFMT (R161). -/
  | setpixfmt (fmt : Byte)
  /-- SETWIN (R163); `start` and `stop` are the s32 fields start and end. -/
  | setwin (axis : Axis) (start stop : Word)
  /-- SETORIENT (R166). -/
  | setorient (preset : Byte) (keepWindow : Bool)
  /-- SETFRAMERATE (R168). -/
  | setframerate (value : Word)
  /-- SETGAMMA (R169). -/
  | setgamma (coeffs : List Word)
  /-- SETINVCTL (R170). -/
  | setinvctl (mode colorfix : Word)
  /-- RDSTATUS (R172). -/
  | rdstatus
  /-- WRPIXELS (R173). -/
  | wrpixels (bytes : List Byte)
  /-- SLEEP (R174). -/
  | sleep (on : Bool)
  /-- DISPLAY (R175). -/
  | display (on : Bool)
  /-- IDLE (R176). -/
  | idle (on : Bool)
  /-- ENCODE (R211). -/
  | encode (r g b : Byte)
  /-- BLIT (R221); `x` and `y` are s16 fields. -/
  | blit (sw sh x y : Half) (src : List Pixel)
  /-- FILL (R222). -/
  | fill (color : Pixel)
  /-- FLUSH (R223). -/
  | flush
  /-- `0x00` read-display-ID (R100). -/
  | cmd00 (count : Word)
  /-- `0x01` software-reset (R101). -/
  | cmd01
  /-- `0x04` read-manufacturer-ID (R102). -/
  | cmd04 (count : Word)
  /-- `0x09` read-display-status (R103). -/
  | cmd09
  /-- `0x10` sleep-in (R104). -/
  | cmd10
  /-- `0x11` sleep-out (R105). -/
  | cmd11
  /-- `0x12` partial-mode-on (R106). -/
  | cmd12 (params : List Byte)
  /-- `0x13` normal-mode-on (R107). -/
  | cmd13
  /-- `0x28` display-off (R108). -/
  | cmd28
  /-- `0x29` display-on (R109). -/
  | cmd29
  /-- `0x2A` column-address-set (R110). -/
  | cmd2A (start stop : Half)
  /-- `0x2B` row-address-set (R111). -/
  | cmd2B (start stop : Half)
  /-- `0x2C` memory-write (R112). -/
  | cmd2C (bytes : List Byte)
  /-- `0x30` partial-area (R113). -/
  | cmd30 (params : List Byte)
  /-- `0x36` memory-access-control (R114). -/
  | cmd36 (orientation : Orientation)
  /-- `0x38` idle-off (R115). -/
  | cmd38
  /-- `0x39` idle-on (R116). -/
  | cmd39
  /-- `0x3A` pixel-format-set (R117). -/
  | cmd3A
  /-- `0xA3` frame-rate-set (R118). -/
  | cmdA3 (value : Byte)
  /-- `0xB4` display-inversion-control (R119). -/
  | cmdB4 (params : List Byte)
  /-- `0xB6` third command of the unlock sequence (R120). -/
  | cmdB6
  /-- `0xDA` read-ID1 (R121). -/
  | cmdDA (count : Word)
  /-- `0xDB` read-ID2 (R122). -/
  | cmdDB (count : Word)
  /-- `0xDC` read-ID3 (R123). -/
  | cmdDC (count : Word)
  /-- `0xEF` second command of the unlock sequence (R124). -/
  | cmdEF
  /-- `0xF0` gamma-set-1 (R125). -/
  | cmdF0 (params : List Byte)
  /-- `0xF1` gamma-set-2 (R126). -/
  | cmdF1 (params : List Byte)
  /-- `0xFE` first command of the unlock sequence (R127). -/
  | cmdFE
  deriving DecidableEq, Repr

/-- An encoded instruction. The block has two encodings (30_encoding.md), and the format, not the op code byte, tells
them apart. -/
inductive Message where
  /-- A host request (R80, R81). -/
  | request (bytes : List Byte)
  /-- A bus command in the block's in-flight slot: its opcode byte, then its operands (log 6). -/
  | command (bytes : List Byte)
  deriving DecidableEq, Repr

end Sys2Proof
end

