-- ==== Sys2Proof/WellFormed.lean ====
section
/-! DEFINITION. Which instructions an encoding can carry: every list fits its length field and the two lists of fixed
length have it (30_encoding.md R81, R84). -/

namespace Sys2Proof

/-- A list whose length a u32 field carries (30_encoding.md R81, 92_eei_decisions.md D40). -/
def listFits {α : Type} (l : List α) : Bool := l.length < 2 ^ 32

def Instr.wf : Instr → Bool
  | .wrcmd _ params => listFits params
  | .setgamma coeffs => coeffs.length = 29
  | .wrpixels bytes => listFits bytes
  | .blit sw sh _ _ src => src.length = sw.toNat * sh.toNat
  | .cmd12 params => listFits params
  | .cmd2C bytes => listFits bytes
  | .cmd30 params => listFits params
  | .cmdB4 params => listFits params
  | .cmdF0 params => listFits params
  | .cmdF1 params => listFits params
  | .reset _ _ | .rdreg _ _ | .init | .setpixfmt _ | .setwin _ _ _ | .setorient _ _ | .setframerate _
  | .setinvctl _ _ | .rdstatus | .sleep _ | .display _ | .idle _ | .encode _ _ _ | .fill _ | .flush
  | .cmd00 _ | .cmd01 | .cmd04 _ | .cmd09 | .cmd10 | .cmd11 | .cmd13 | .cmd28 | .cmd29 | .cmd2A _ _ | .cmd2B _ _
  | .cmd36 _ | .cmd38 | .cmd39 | .cmd3A | .cmdA3 _ | .cmdB6 | .cmdDA _ | .cmdDB _ | .cmdDC _ | .cmdEF | .cmdFE => true

end Sys2Proof
end

