-- ==== Sys2Proof/Decode.lean ====
section
/-! DEFINITION. Decoding and encoding (30_encoding.md R80 to R84, R100 to R130).

A parser takes a byte string and answers a value with the bytes after it, or `none` where the string is shorter than
the layout or holds a value R130 calls undefined. Bytes after the layout are not looked at (log 9). -/

namespace Sys2Proof

/-! ## Fields: big-endian, high byte first (R81, R82) -/

def Half.bytes (h : Half) : List Byte := [h.extractLsb' 8 8, h.extractLsb' 0 8]

def Word.bytes (w : Word) : List Byte :=
  [w.extractLsb' 24 8, w.extractLsb' 16 8, w.extractLsb' 8 8, w.extractLsb' 0 8]

def Half.ofBytes (a b : Byte) : Half := a ++ b

def Word.ofBytes (a b c d : Byte) : Word := a ++ b ++ c ++ d

/-- A parser: the value read and the bytes after it. -/
abbrev Parse (α : Type) := Option (α × List Byte)

/-- The second parser runs on the bytes the first leaves. -/
def Parse.andThen {α β : Type} (p : Parse α) (f : α → List Byte → Parse β) : Parse β :=
  match p with
  | some (a, rest) => f a rest
  | none => none

/-- The instruction that `f` makes of the value read. -/
def Parse.as {α β : Type} (p : Parse α) (f : α → β) : Parse β := p.andThen fun a rest => some (f a, rest)

def takeByte : List Byte → Parse Byte
  | a :: rest => some (a, rest)
  | _ => none

def takeHalf : List Byte → Parse Half
  | a :: b :: rest => some (Half.ofBytes a b, rest)
  | _ => none

def takeWord : List Byte → Parse Word
  | a :: b :: c :: d :: rest => some (Word.ofBytes a b c d, rest)
  | _ => none

/-- `n` fields read one after the other by `take`. -/
def takeMany {α : Type} (take : List Byte → Parse α) : Nat → List Byte → Parse (List α)
  | 0, bytes => some ([], bytes)
  | n + 1, bytes => (take bytes).andThen fun a rest => (takeMany take n rest).as (a :: ·)

/-- A byte list preceded by its u32 length (R81). -/
def takeList (bytes : List Byte) : Parse (List Byte) :=
  (takeWord bytes).andThen fun n rest =>
    if n.toNat ≤ rest.length then some (rest.take n.toNat, rest.drop n.toNat) else none

/-- A byte list with its u32 length before it (R81). -/
def listBytes (l : List Byte) : List Byte := Word.bytes (BitVec.ofNat 32 l.length) ++ l

/-- A flags byte whose bits 7:1 are reserved, 0 (R81, R130). -/
def takeFlag (bytes : List Byte) : Parse Bool :=
  (takeByte bytes).andThen fun f rest =>
    if f &&& 0xFE = 0 then some (f.getLsbD 0, rest) else none

def flagByte (b : Bool) : Byte := if b then 0x01 else 0x00

/-- The flags byte of RESET: bit 0 hw, bit 1 sw, bits 7:2 reserved, 0 (R81, R130). -/
def takeResetFlags (bytes : List Byte) : Parse (Bool × Bool) :=
  (takeByte bytes).andThen fun f rest =>
    if f &&& 0xFC = 0 then some ((f.getLsbD 0, f.getLsbD 1), rest) else none

def resetFlagsByte (hw sw : Bool) : Byte := flagByte hw ||| flagByte sw <<< 1

/-- The axis byte of SETWIN: 0 column, 1 row, 2..255 undefined (R81, R130). -/
def takeAxis (bytes : List Byte) : Parse Axis :=
  (takeByte bytes).andThen fun a rest =>
    if a = 0x00 then some (.col, rest) else if a = 0x01 then some (.row, rest) else none

def Axis.byte : Axis → Byte
  | .col => 0x00
  | .row => 0x01

/-- The orientation byte, `mac_byte` of 41_controller.md R165: bits 1:0 are 0. -/
def Orientation.byte (o : Orientation) : Byte :=
  (BitVec.ofBool o.my).setWidth 8 <<< 7 ||| (BitVec.ofBool o.mx).setWidth 8 <<< 6 |||
  (BitVec.ofBool o.mv).setWidth 8 <<< 5 ||| (BitVec.ofBool o.ml).setWidth 8 <<< 4 |||
  (BitVec.ofBool o.bgr).setWidth 8 <<< 3 ||| (BitVec.ofBool o.mh).setWidth 8 <<< 2

/-- Decoding the orientation byte (41_controller.md R165). -/
def Orientation.ofByte (m : Byte) : Orientation where
  my := m.getLsbD 7
  mx := m.getLsbD 6
  mv := m.getLsbD 5
  ml := m.getLsbD 4
  bgr := m.getLsbD 3
  mh := m.getLsbD 2

/-- The operand of memory-access-control; a byte with bit 1 or 0 set is no orientation byte (R114, log 6). -/
def takeOrientation (bytes : List Byte) : Parse Orientation :=
  (takeByte bytes).andThen fun m rest =>
    if m &&& 0x03 = 0 then some (Orientation.ofByte m, rest) else none

/-- BLIT's fields; the pixel list has length sw x sh (R81, R84). -/
def takeBlit (bytes : List Byte) : Parse Instr :=
  (takeHalf bytes).andThen fun sw rest =>
    (takeHalf rest).andThen fun sh rest =>
      (takeHalf rest).andThen fun x rest =>
        (takeHalf rest).andThen fun y rest =>
          (takeMany takeHalf (sw.toNat * sh.toNat) rest).as (.blit sw sh x y)

/-! ## The tables -/

/-- A row: the op code byte and the parser of what follows it. -/
abbrev Row := Byte × (List Byte → Parse Instr)

/-- The HREQ rows (R80, R81). -/
def requestRows : List Row :=
  [ (0x01, fun b => (takeResetFlags b).as fun (hw, sw) => .reset hw sw),
    (0x02, fun b => (takeByte b).andThen fun op rest => (takeList rest).as (.wrcmd op)),
    (0x03, fun b => (takeByte b).andThen fun op rest => (takeWord rest).as (.rdreg op)),
    (0x10, fun b => some (.init, b)),
    (0x11, fun b => (takeByte b).as .setpixfmt),
    (0x12, fun b => (takeAxis b).andThen fun axis rest =>
      (takeWord rest).andThen fun start rest => (takeWord rest).as (.setwin axis start)),
    (0x13, fun b => (takeByte b).andThen fun preset rest => (takeFlag rest).as (.setorient preset)),
    (0x14, fun b => (takeWord b).as .setframerate),
    (0x15, fun b => (takeMany takeWord 29 b).as .setgamma),
    (0x16, fun b => (takeWord b).andThen fun mode rest => (takeWord rest).as (.setinvctl mode)) ] ++
  [ (0x17, fun b => some (.rdstatus, b)),
    (0x18, fun b => (takeList b).as .wrpixels),
    (0x19, fun b => (takeFlag b).as .sleep),
    (0x1A, fun b => (takeFlag b).as .display),
    (0x1B, fun b => (takeFlag b).as .idle),
    (0x20, fun b => (takeByte b).andThen fun r rest =>
      (takeByte rest).andThen fun g rest => (takeByte rest).as (.encode r g)),
    (0x30, takeBlit),
    (0x31, fun b => (takeHalf b).as .fill),
    (0x32, fun b => some (.flush, b)) ]

/-- The BUSCMD rows (R100 to R127). A row's operands are what its rule leaves to whoever issues the command: the read
count of a read frame whose count the rule does not fix, and the parameters the rule does not fix (log 6). -/
def commandRows : List Row :=
  [ (0x00, fun b => (takeWord b).as .cmd00),
    (0x01, fun b => some (.cmd01, b)),
    (0x04, fun b => (takeWord b).as .cmd04),
    (0x09, fun b => some (.cmd09, b)),
    (0x10, fun b => some (.cmd10, b)),
    (0x11, fun b => some (.cmd11, b)),
    (0x12, fun b => (takeList b).as .cmd12),
    (0x13, fun b => some (.cmd13, b)),
    (0x28, fun b => some (.cmd28, b)),
    (0x29, fun b => some (.cmd29, b)),
    (0x2A, fun b => (takeHalf b).andThen fun start rest => (takeHalf rest).as (.cmd2A start)),
    (0x2B, fun b => (takeHalf b).andThen fun start rest => (takeHalf rest).as (.cmd2B start)),
    (0x2C, fun b => (takeList b).as .cmd2C),
    (0x30, fun b => (takeList b).as .cmd30) ] ++
  [ (0x36, fun b => (takeOrientation b).as .cmd36),
    (0x38, fun b => some (.cmd38, b)),
    (0x39, fun b => some (.cmd39, b)),
    (0x3A, fun b => some (.cmd3A, b)),
    (0xA3, fun b => (takeByte b).as .cmdA3),
    (0xB4, fun b => (takeList b).as .cmdB4),
    (0xB6, fun b => some (.cmdB6, b)),
    (0xDA, fun b => (takeWord b).as .cmdDA),
    (0xDB, fun b => (takeWord b).as .cmdDB),
    (0xDC, fun b => (takeWord b).as .cmdDC),
    (0xEF, fun b => some (.cmdEF, b)),
    (0xF0, fun b => (takeList b).as .cmdF0),
    (0xF1, fun b => (takeList b).as .cmdF1),
    (0xFE, fun b => some (.cmdFE, b)) ]

/-- A decoder reads the op code, then the fixed fields, then the list (R84). -/
def decodeRows (rows : List Row) : List Byte → Parse Instr
  | op :: rest =>
    match rows.lookup op with
    | some parse => parse rest
    | none => none
  | [] => none

/-- The host request a byte string holds; `none` is R130's undefined request. -/
def decodeRequest (bytes : List Byte) : Option Instr := (decodeRows requestRows bytes).map (·.1)

/-- The bus command an in-flight byte string holds. -/
def decodeCommand (bytes : List Byte) : Option Instr := (decodeRows commandRows bytes).map (·.1)

def decode : Message → Option Instr
  | .request bytes => decodeRequest bytes
  | .command bytes => decodeCommand bytes

/-! ## Encoding -/

/-- The bytes of an instruction, from the layouts of R80, R81 and R100 to R127. -/
def encode : Instr → Message
  | .reset hw sw => .request [0x01, resetFlagsByte hw sw]
  | .wrcmd opcode params => .request (0x02 :: opcode :: listBytes params)
  | .rdreg opcode count => .request (0x03 :: opcode :: Word.bytes count)
  | .init => .request [0x10]
  | .setpixfmt fmt => .request [0x11, fmt]
  | .setwin axis start stop => .request (0x12 :: axis.byte :: (Word.bytes start ++ Word.bytes stop))
  | .setorient preset keepWindow => .request [0x13, preset, flagByte keepWindow]
  | .setframerate value => .request (0x14 :: Word.bytes value)
  | .setgamma coeffs => .request (0x15 :: coeffs.flatMap Word.bytes)
  | .setinvctl mode colorfix => .request (0x16 :: (Word.bytes mode ++ Word.bytes colorfix))
  | .rdstatus => .request [0x17]
  | .wrpixels bytes => .request (0x18 :: listBytes bytes)
  | .sleep on => .request [0x19, flagByte on]
  | .display on => .request [0x1A, flagByte on]
  | .idle on => .request [0x1B, flagByte on]
  | .encode r g b => .request [0x20, r, g, b]
  | .blit sw sh x y src =>
    .request (0x30 :: (Half.bytes sw ++ Half.bytes sh ++ Half.bytes x ++ Half.bytes y ++ src.flatMap Half.bytes))
  | .fill color => .request (0x31 :: Half.bytes color)
  | .flush => .request [0x32]
  | .cmd00 count => .command (0x00 :: Word.bytes count)
  | .cmd01 => .command [0x01]
  | .cmd04 count => .command (0x04 :: Word.bytes count)
  | .cmd09 => .command [0x09]
  | .cmd10 => .command [0x10]
  | .cmd11 => .command [0x11]
  | .cmd12 params => .command (0x12 :: listBytes params)
  | .cmd13 => .command [0x13]
  | .cmd28 => .command [0x28]
  | .cmd29 => .command [0x29]
  | .cmd2A start stop => .command (0x2A :: (Half.bytes start ++ Half.bytes stop))
  | .cmd2B start stop => .command (0x2B :: (Half.bytes start ++ Half.bytes stop))
  | .cmd2C bytes => .command (0x2C :: listBytes bytes)
  | .cmd30 params => .command (0x30 :: listBytes params)
  | .cmd36 orientation => .command [0x36, orientation.byte]
  | .cmd38 => .command [0x38]
  | .cmd39 => .command [0x39]
  | .cmd3A => .command [0x3A]
  | .cmdA3 value => .command [0xA3, value]
  | .cmdB4 params => .command (0xB4 :: listBytes params)
  | .cmdB6 => .command [0xB6]
  | .cmdDA count => .command (0xDA :: Word.bytes count)
  | .cmdDB count => .command (0xDB :: Word.bytes count)
  | .cmdDC count => .command (0xDC :: Word.bytes count)
  | .cmdEF => .command [0xEF]
  | .cmdF0 params => .command (0xF0 :: listBytes params)
  | .cmdF1 params => .command (0xF1 :: listBytes params)
  | .cmdFE => .command [0xFE]

/-! ## Words of the opcode table -/

/-- The length of the longest request without a list, SETGAMMA's (R81). -/
def longestBytes : Nat := 117

/-- The bytes of a table word: its first byte is the op code, the next byte its bits 15..8, and so on; above `nbits`
there are zero bytes. -/
def tableBytes (nbits w : Nat) : List Byte :=
  (List.range (max longestBytes (nbits / 8))).map fun i => BitVec.ofNat 8 ((w % 2 ^ nbits) >>> (8 * i))

/-- A table word is a host request where its first byte is a host op code (R80), else a bus command where that byte is
a named bus opcode, else a (bad) host request (log 8). -/
def tableMessage (nbits w : Nat) : Message :=
  let op := BitVec.ofNat 8 (w % 2 ^ nbits)
  if (requestRows.lookup op).isNone && (commandRows.lookup op).isSome then .command (tableBytes nbits w)
  else .request (tableBytes nbits w)

/-- The instruction the decoder reads from a table word. -/
def decodeTableWord (nbits w : Nat) : Option Instr := decode (tableMessage nbits w)

end Sys2Proof
end

