-- ==== Sys2Proof/Config.lean ====
section
/-! DEFINITION. The implementation parameters of 00_scope.md R8, and the free values.

A `Config` is one choice of the plain-data parameters; `State.cfg` holds one, so a claim about every state is a claim
about every choice (log 1). The two parameters that are functions, and the values the spec leaves free, are
uninterpreted constants. -/

namespace Sys2Proof

/-- `PIXEL_BYTE_ORDER` (92_eei_decisions.md D12). -/
inductive ByteOrder where
  | be
  | le
  deriving DecidableEq, Repr

/-- `STATUS_LAYOUT` (92_eei_decisions.md D13): the bit of the status word at which each named field stands. The
pixel-format code takes a list of positions, that of its lowest bit first. -/
structure StatusLayout where
  my : Nat
  mx : Nat
  mv : Nat
  ml : Nat
  bgr : Nat
  mh : Nat
  pixfmt : List Nat
  idle : Nat
  partialMode : Nat
  sleep : Nat
  normalMode : Nat
  inversion : Nat
  display : Nat
  teOn : Nat
  teMode : Nat
  deriving DecidableEq, Repr

/-- The default layout (92_eei_decisions.md D13, 41_controller.md R171). -/
def StatusLayout.default : StatusLayout where
  my := 30
  mx := 29
  mv := 28
  ml := 27
  bgr := 26
  mh := 25
  pixfmt := [20, 21, 22]
  idle := 19
  partialMode := 18
  sleep := 17
  normalMode := 16
  inversion := 13
  display := 10
  teOn := 9
  teMode := 5

/-- Every position lies in the 32-bit word. -/
def StatusLayout.wf (l : StatusLayout) : Bool :=
  ([l.my, l.mx, l.mv, l.ml, l.bgr, l.mh, l.idle, l.partialMode, l.sleep, l.normalMode, l.inversion, l.display, l.teOn,
    l.teMode] ++ l.pixfmt).all (· < 32)

/-- The parameters of 00_scope.md R8 that are plain data. -/
structure Config where
  /-- `PANEL_W`. -/
  panelW : Nat
  /-- `PANEL_H`. -/
  panelH : Nat
  /-- `PF16_CODE` (92 D30). -/
  pf16Code : Byte
  /-- `FR_MASK` (92 D27). -/
  frMask : Byte
  /-- `STATUS_LAYOUT` (92 D13). -/
  statusLayout : StatusLayout
  /-- `ORIENT_DEFAULT` (92 D20). -/
  orientDefault : Byte
  /-- `PIXEL_BYTE_ORDER` (92 D12). -/
  pixelByteOrder : ByteOrder
  /-- `END_MAX_INCLUSIVE` (92 D16). -/
  endMaxInclusive : Bool
  /-- `UNLOCK_CLEARED_BY_RESET` (92 D24). -/
  unlockClearedByReset : Bool
  /-- `DISPLAY_OFF_OPCODE` (92 D37). -/
  displayOffOpcode : Byte
  /-- `INIT_UNLOCKS` (92 D47). -/
  initUnlocks : Bool
  deriving DecidableEq, Repr

/-- The number N of framebuffer cells (43_framebuffer.md R220). -/
def Config.cells (c : Config) : Nat := c.panelW * c.panelH

/-- The bounds the spec puts on the parameters: the resolution (92 D48), the orientation default with bits 1:0 and MV
zero (92 D20, D18), the two display-off opcodes (92 D37), the layout inside its word. -/
def Config.wf (c : Config) : Bool :=
  2 ≤ c.panelW && c.panelW ≤ (if c.endMaxInclusive then 0x10000 else 0xFFFF) &&
  2 ≤ c.panelH && c.panelH ≤ (if c.endMaxInclusive then 0x10000 else 0xFFFF) &&
  c.orientDefault &&& 0x23 = 0 &&
  (c.displayOffOpcode = 0x28 || c.displayOffOpcode = 0x29) &&
  c.statusLayout.wf

/-- `PANEL_W - 2` of the machine at reset: OPEN (92 D48), so uninterpreted; its type is the bound [2, 0x10000]. -/
opaque Config.openPanelW : Fin 0xFFFF

/-- `PANEL_H - 2` of the machine at reset: OPEN (92 D48). -/
opaque Config.openPanelH : Fin 0xFFFF

/-- `PF16_CODE` of the machine at reset: OPEN (92 D30). -/
opaque Config.openPf16Code : Byte

/-- `FR_MASK` of the machine at reset: OPEN (92 D27). -/
opaque Config.openFrMask : Byte

/-- `GAMMA_ENCODE` (92 D28): the byte lists P0 and P1 for the 29 coefficients, or `none` for InvalidArgument. -/
opaque Config.gammaEncode : List Int → Option (List Byte × List Byte)

/-- `INV_ENCODE` (92 D29) on the modes it may accept: the byte list, or `none` for InvalidArgument. -/
opaque Config.invPacking : Nat → Nat → Option (List Byte)

/-- The byte the panel drives at a read pulse (20_memory.md R65) once `State.panel` is used up: free (log 3). -/
opaque Config.panelByte : Nat → Byte

/-- The value on D[7:0] between frames (10_state.md R24): free (log 4). -/
opaque Config.idleData : Nat → Byte

/-- The configuration at reset: the default where 00_scope.md R8 has one, an uninterpreted constant where it says OPEN
(log 2). -/
def Config.atReset : Config where
  panelW := Config.openPanelW.val + 2
  panelH := Config.openPanelH.val + 2
  pf16Code := Config.openPf16Code
  frMask := Config.openFrMask
  statusLayout := StatusLayout.default
  orientDefault := 0x00
  pixelByteOrder := .be
  endMaxInclusive := true
  unlockClearedByReset := false
  displayOffOpcode := 0x28
  initUnlocks := true

end Sys2Proof
end

