-- ==== Sys2Proof/Machine/State.lean ====
section
/-! DEFINITION. The state of the block (10_state.md), the bus events and responses it answers with (20_memory.md R63,
30_encoding.md R83), and why a step can stop (60_exceptions.md R244, R245). INVENTORY.md lists every field with its
rule. -/

namespace Sys2Proof.Machine

/-! ## Why a step stops -/

/-- The model faults of 60_exceptions.md R244. -/
inductive Fault where
  /-- UNSET_STATE: raised by WRPIXELS, FLUSH, ENCODE (pixel format UNSET), SETWIN with end < 0 and BLIT (MV UNSET).
  Safe: the block would go on with a value the spec does not give. -/
  | unsetState
  /-- UNWRITTEN_PIXEL: raised by FLUSH while some cell is UNWRITTEN. Safe, as above. -/
  | unwrittenPixel
  deriving DecidableEq, Repr

/-- Why a step gives a request no meaning (60_exceptions.md R245). -/
inductive Refusal where
  /-- An instruction this model has not given its meaning; raised by no arm of `exec`. Safe. -/
  | notModelled (mnemonic : String)
  /-- BAD_REQUEST: raised by `step` on an undefined request (30_encoding.md R130) and by BLIT on a pixel list of the
  wrong length (43_framebuffer.md R221). Safe: the real block may run such a request. -/
  | badRequest
  /-- RAW_STATEFUL: raised by WRCMD and RDREG on a tracked opcode (30_encoding.md R128). Safe, as above. -/
  | rawStateful
  /-- Raised by `step` when the in-flight slot holds bytes that are no bus command of R100 to R127 (log 6). Safe. -/
  | badCommand
  /-- Raised by `step` when `refusedMark` is set: the block takes no further step (R245). Safe. -/
  | stopped
  deriving DecidableEq, Repr

/-! ## What the block answers -/

/-- A bus event (20_memory.md R63). -/
inductive Event where
  | csAssert
  | csDeassert
  | dcCmd
  | dcData
  | wr (b : Byte)
  | dirIn
  | dirOut
  | rd (b : Byte)
  | rstLow
  | rstHigh
  | delay (ms : Nat)
  deriving DecidableEq, Repr

/-- The error taxonomy (60_exceptions.md R240). -/
inductive Status where
  | ok
  | invalidArgument
  | unsupportedFormat
  /-- Never raised by this block (92 D42). -/
  | malformedImage
  /-- Never raised by this block (92 D41). -/
  | protocolTimingViolation
  deriving DecidableEq, Repr

/-- A response to a host request: a status, and data only with status OK (30_encoding.md R83). -/
structure Response where
  status : Status
  data : List Byte
  deriving DecidableEq, Repr

/-! ## The state -/

/-- The direction of the data lines (10_state.md R23). -/
inductive Dir where
  | input
  | output
  deriving DecidableEq, Repr

/-- The output latches (10_state.md R22, R23); `true` is level 1. CSn, WRn, RDn, RESETn are active low; DC is 0 for
command, 1 for data. -/
structure Pins where
  d : Byte
  csn : Bool
  wrn : Bool
  rdn : Bool
  dc : Bool
  resetn : Bool
  dir : Dir
  deriving DecidableEq, Repr

/-- `CS.phase` (10_state.md R25). -/
inductive Phase where
  | uninit
  | reset
  | configured
  deriving DecidableEq, Repr

/-- The pixel formats that can be stored (10_state.md R26). -/
inductive PixelFormat where
  | format16
  deriving DecidableEq, Repr

/-- The Controller State (10_state.md R25 to R30). `none` is UNSET, the spec's own value (00_scope.md R12). -/
structure Controller where
  phase : Phase
  pixfmt : Option PixelFormat
  my : Option Bool
  mx : Option Bool
  mv : Option Bool
  ml : Option Bool
  bgr : Option Bool
  mh : Option Bool
  colStart : Option Half
  colEnd : Option Half
  rowStart : Option Half
  rowEnd : Option Half
  sleeping : Option Bool
  idle : Option Bool
  displayOn : Option Bool
  inverted : Option Bool
  unlocked : Bool
  deriving DecidableEq, Repr

/-- The framebuffer's cells (10_state.md R33): index and pixel, indices strictly rising. An unlisted cell is UNWRITTEN,
so no entry equals what an unlisted one reads as. -/
abbrev Memory := List (Nat × Pixel)

/-- The canonical form: indices strictly rising. -/
def Memory.wf : Memory → Bool
  | [] => true
  | [_] => true
  | (i, _) :: (j, v) :: rest => i < j && Memory.wf ((j, v) :: rest)

structure State where
  /-- The parameters (00_scope.md R8); written by nothing (log 1). -/
  cfg : Config
  pins : Pins
  cs : Controller
  fb : Memory
  /-- The bus trace, oldest event first (20_memory.md R63). -/
  trace : List Event
  /-- The responses, oldest first. -/
  responses : List Response
  /-- The host's position in its list of operations (10_state.md R20). -/
  pc : Nat
  /-- The host's operations from there on, as request bytes (30_encoding.md R81; log 1). -/
  requests : List (List Byte)
  /-- The in-flight command (10_state.md R35); the block is busy when it holds one (log 5). -/
  inflight : Option (List Byte)
  /-- The bytes that answer the next read pulses in order (20_memory.md R65; log 3). -/
  panel : List Byte
  /-- The model's own counter of free values taken (log 3, log 4). -/
  free : Nat
  /-- `fault_mark` (10_state.md R37). -/
  faultMark : Option Fault
  /-- `refused_mark` (10_state.md R37). -/
  refusedMark : Bool
  deriving DecidableEq, Repr

/-- What a meaning answers. -/
abbrev Result := Host.Outcome State Fault Refusal

/-! ## Power-on (10_state.md R40, 70_reset_and_hazards.md R270) -/

/-- The idle levels of 10_state.md R24, with a free value on D[7:0] (log 4). -/
def Pins.reset : Pins where
  d := Config.idleData 0
  csn := true
  wrn := true
  rdn := true
  dc := true
  resetn := true
  dir := .output

def Controller.reset : Controller where
  phase := .uninit
  pixfmt := none
  my := none
  mx := none
  mv := none
  ml := none
  bgr := none
  mh := none
  colStart := none
  colEnd := none
  rowStart := none
  rowEnd := none
  sleeping := none
  idle := none
  displayOn := none
  inverted := none
  unlocked := false

def State.reset : State where
  cfg := Config.atReset
  pins := Pins.reset
  cs := Controller.reset
  fb := []
  trace := []
  responses := []
  pc := 0
  requests := []
  inflight := none
  panel := []
  free := 1
  faultMark := none
  refusedMark := false

end Sys2Proof.Machine
end

