-- ==== Sys2Proof/Machine/Ops.lean ====
section
/-! DEFINITION. The named operations every meaning is built from: the framebuffer's cells, the bus events and frames
(20_memory.md R63, 40_bus_transport.md), the panel's bytes, and the ways an operation ends (00_scope.md R11). -/

namespace Sys2Proof.Machine

/-! ## Framebuffer cells (20_memory.md R60) -/

/-- `FB[i]`; `none` is UNWRITTEN. -/
def Memory.read : Memory → Nat → Option Pixel
  | [], _ => none
  | (j, v) :: rest, i => if i = j then some v else Memory.read rest i

/-- `FB[i] <- v`, keeping the indices strictly rising. -/
def Memory.write : Memory → Nat → Pixel → Memory
  | [], i, v => [(i, v)]
  | (j, w) :: rest, i, v =>
    if i < j then (i, v) :: (j, w) :: rest
    else if i = j then (i, v) :: rest
    else (j, w) :: Memory.write rest i v

/-- Writes in order, one after the other. -/
def Memory.writeAll (m : Memory) (writes : List (Nat × Pixel)) : Memory :=
  writes.foldl (fun m w => m.write w.1 w.2) m

/-- `n` cells, all of one colour (43_framebuffer.md R222). -/
def Memory.filled (n : Nat) (color : Pixel) : Memory := (List.range n).map (·, color)

/-- No cell of the first `n` is UNWRITTEN (43_framebuffer.md R223). -/
def Memory.allWritten (m : Memory) (n : Nat) : Bool := (List.range n).all fun i => (m.read i).isSome

/-! ## Updates of one field -/

def State.setCs (cs : Controller) (s : State) : State := { s with cs := cs }

def State.setFb (fb : Memory) (s : State) : State := { s with fb := fb }

/-- `CS.f <- v` for the fields `f` changes (00_scope.md R10). -/
def State.modifyCs (f : Controller → Controller) (s : State) : State := s.setCs (f s.cs)

/-! ## Bus events (20_memory.md R63) -/

/-- The levels after an event. A strobe pulse ends with its line high again; `idle` is the free value D[7:0] has once a
frame has ended (10_state.md R24, log 4). -/
def Pins.after (e : Event) (idle : Byte) (p : Pins) : Pins :=
  match e with
  | .csAssert => { p with csn := false }
  | .csDeassert => { p with csn := true, d := idle }
  | .dcCmd => { p with dc := false }
  | .dcData => { p with dc := true }
  | .wr b => { p with d := b, wrn := true }
  | .dirIn => { p with dir := .input }
  | .dirOut => { p with dir := .output }
  | .rd _ => { p with rdn := true }
  | .rstLow => { p with resetn := false }
  | .rstHigh => { p with resetn := true }
  | .delay _ => p

/-- How many free values an event takes. -/
def Event.frees : Event → Nat
  | .csDeassert => 1
  | _ => 0

/-- `emit(e)` (00_scope.md R10). -/
def emit (s : State) (e : Event) : State :=
  { s with
    trace := s.trace ++ [e]
    pins := s.pins.after e (Config.idleData s.free)
    free := s.free + e.frees }

/-- Events in order. -/
def emits (events : List Event) (s : State) : State := events.foldl emit s

/-- `delay(n)` (00_scope.md R10). -/
def delay (ms : Nat) (s : State) : State := emits [.delay ms] s

/-! ## Frames (40_bus_transport.md R141, R144) -/

/-- The events of `frame_write(op, P)`. -/
def writeFrame (op : Byte) (params : List Byte) : List Event :=
  [.csAssert, .dcCmd, .wr op, .dcData] ++ params.map .wr ++ [.csDeassert]

/-- The events of `frame_read(op, n)` when the panel answers `bytes`, the dummy byte first. -/
def readFrame (op : Byte) (bytes : List Byte) : List Event :=
  [.csAssert, .dcCmd, .wr op, .dcData, .dirIn] ++ bytes.map .rd ++ [.dirOut, .csDeassert]

def frameWrite (op : Byte) (params : List Byte) (s : State) : State := emits (writeFrame op params) s

/-- `panel_byte()` (00_scope.md R10): the oracle's next byte, a free value once its list is used up (log 3). -/
def panelByte (s : State) : Byte × State :=
  match s.panel with
  | b :: rest => (b, { s with panel := rest })
  | [] => (Config.panelByte s.free, { s with free := s.free + 1 })

def panelBytes : Nat → State → List Byte × State
  | 0, s => ([], s)
  | n + 1, s =>
    let (b, s) := panelByte s
    let (bs, s) := panelBytes n s
    (b :: bs, s)

/-- `frame_read(op, n)`: one dummy pulse and `n` pulses; the dummy byte is in the trace and not in the result. -/
def frameRead (op : Byte) (n : Nat) (s : State) : List Byte × State :=
  let (bytes, s) := panelBytes (n + 1) s
  (bytes.drop 1, emits (readFrame op bytes) s)

/-! ## Resets (40_bus_transport.md R147, R148) -/

def hwResetEvents : List Event := [.rstLow, .delay 5, .rstHigh, .delay 15]

def hwReset (s : State) : State := emits hwResetEvents s

def swReset (s : State) : State := delay 5 (frameWrite 0x01 [] s)

/-! ## How an operation ends (00_scope.md R10, R11) -/

/-- The status codes (60_exceptions.md R240). -/
def Status.code : Status → Byte
  | .ok => 0
  | .invalidArgument => 1
  | .unsupportedFormat => 2
  | .malformedImage => 3
  | .protocolTimingViolation => 4

/-- The bytes of a response (30_encoding.md R83). -/
def Response.bytes (r : Response) : List Byte := r.status.code :: r.data

/-- The response is given and the host's position advances by one, whatever the status (10_state.md R20). -/
def respond (r : Response) (s : State) : State := { s with responses := s.responses ++ [r], pc := s.pc + 1 }

/-- `return OK(d)`. -/
def returnOk (data : List Byte) (s : State) : Result := .next (respond ⟨.ok, data⟩ s)

/-- `raise E`, the entry into an error (60_exceptions.md R248): the response carries the code, nothing is saved, no
mode changes, and the block is ready for the next request. There is no return from it (R249). -/
def raise (e : Status) (s : State) : Result := .next (respond ⟨e, []⟩ s)

/-! ## The marks (10_state.md R37, 60_exceptions.md R244, R245) -/

/-- The state a run is left in by an outcome: a fault or a refusal changes nothing but its mark. -/
def State.record (s : State) : Result → State
  | .next t => t
  | .fault r => { s with faultMark := some r }
  | .refused _ => { s with refusedMark := true }

end Sys2Proof.Machine
end

