-- ==== Sys2Proof/Machine/Operands.lean ====
section
/-! DEFINITION. What the operations compute from their operands: window bounds, orientation, status word, colours, pixel
bytes, framebuffer geometry, the encoders. -/

namespace Sys2Proof.Machine

/-! ## Raw opcodes (30_encoding.md R128) -/

/-- `TRACKED`. -/
def trackedOpcodes : List Byte := [0x01, 0x10, 0x11, 0x28, 0x29, 0x2A, 0x2B, 0x36, 0x38, 0x39, 0x3A]

/-! ## Windows (41_controller.md R162, R163) -/

/-- `extent(axis)` for a value of MV. -/
def extent (cfg : Config) : Axis → (mv : Bool) → Nat
  | .col, false => cfg.panelW
  | .col, true => cfg.panelH
  | .row, false => cfg.panelH
  | .row, true => cfg.panelW

/-- `max_end(axis)` for a value of MV. -/
def maxEnd (cfg : Config) (axis : Axis) (mv : Bool) : Nat :=
  extent cfg axis mv - (if cfg.endMaxInclusive then 1 else 0)

/-- The end of SETWIN: a negative one is the maximum extent, which reads MV; `none` where that is UNSET. -/
def resolveEnd (axis : Axis) (stop : Word) (s : State) : Option Int :=
  if stop.toInt < 0 then s.cs.mv.map fun mv => (maxEnd s.cfg axis mv : Int) else some stop.toInt

/-- The bounds SETWIN accepts, its end resolved (R163, R241). -/
def windowLegal (start stop : Int) : Bool :=
  0 ≤ start && start ≤ 0xFFFF && stop ≤ 0xFFFF && start < stop

/-- The opcode of an axis (R162). -/
def axisOpcode : Axis → Byte
  | .col => 0x2A
  | .row => 0x2B

/-- The four parameters of address-set, high byte of each bound first (20_memory.md R66). -/
def windowParams (start stop : Half) : List Byte := Half.bytes start ++ Half.bytes stop

/-! ## Orientation (41_controller.md R164, R165) -/

/-- A preset's row of the table (R164) with the three bits that are independent of it. -/
def presetOrientation (preset : Byte) (ml bgr mh : Bool) : Orientation where
  mv := preset.getLsbD 2
  my := preset.getLsbD 1
  mx := preset.getLsbD 0
  ml := ml
  bgr := bgr
  mh := mh

/-! ## Status word (41_controller.md R171) -/

/-- The value of the bits of a word at a list of positions, the lowest bit's position first. -/
def fieldAt (w : Word) : List Nat → Nat
  | [] => 0
  | i :: rest => (w.getLsbD i).toNat + 2 * fieldAt w rest

/-- The status snapshot: the fields that R171 gives it. -/
structure Snapshot where
  orientation : Orientation
  pixfmtCode : Nat
  idleBit : Bool
  sleepBit : Bool
  inversionBit : Bool
  displayBit : Bool
  teModeBit : Bool
  deriving DecidableEq, Repr

/-- `status_decode` on the status word. -/
def statusDecode (l : StatusLayout) (w : Word) : Snapshot where
  orientation :=
    { my := w.getLsbD l.my
      mx := w.getLsbD l.mx
      mv := w.getLsbD l.mv
      ml := w.getLsbD l.ml
      bgr := w.getLsbD l.bgr
      mh := w.getLsbD l.mh }
  pixfmtCode := fieldAt w l.pixfmt
  idleBit := w.getLsbD l.idle
  sleepBit := w.getLsbD l.sleep
  inversionBit := w.getLsbD l.inversion
  displayBit := w.getLsbD l.display
  teModeBit := w.getLsbD l.teMode

/-- The three further bits whose positions 92_eei_decisions.md D13 gives and the snapshot leaves out (log 17). -/
structure ModeBits where
  partialBit : Bool
  normalBit : Bool
  teOnBit : Bool
  deriving DecidableEq, Repr

def statusModes (l : StatusLayout) (w : Word) : ModeBits where
  partialBit := w.getLsbD l.partialMode
  normalBit := w.getLsbD l.normalMode
  teOnBit := w.getLsbD l.teOn

/-- The status word of the bytes read, the first one highest (20_memory.md R66): `b0<<24 | b1<<16 | b2<<8 | b3`. -/
def statusWord (bytes : List Byte) : Word := bytes.foldl (fun w b => w <<< 8 ||| b.setWidth 32) 0

/-! ## Privileged operands (41_controller.md R168 to R170) -/

/-- A frame-rate value that survives the mask (R168). -/
def frameRateLegal (mask : Byte) (value : Word) : Bool :=
  value.toNat ≤ 0xFF && value.setWidth 8 &&& ~~~mask = 0

/-- `INV_ENCODE`: InvalidArgument whenever mode > 4 (00_scope.md R8, 92 D29). -/
def invEncode (mode colorfix : Nat) : Option (List Byte) :=
  if mode > 4 then none else Config.invPacking mode colorfix

/-! ## Colours (42_color.md R210) -/

/-- `encode565(r, g, b)`. -/
def encode565 (r g b : Byte) : Pixel :=
  let cr : Byte := 0xFF - r
  let cg : Byte := 0xFF - g
  let cb : Byte := 0xFF - b
  ((cr &&& 0xF8).setWidth 16 <<< 8) ||| ((cg &&& 0xFC).setWidth 16 <<< 3) ||| ((cb &&& 0xF8).setWidth 16 >>> 3)

/-- The functions a pixel format binds (42_color.md R215): its colour-encode function. -/
def PixelFormat.encodeColor : PixelFormat → Byte → Byte → Byte → Pixel
  | .format16 => encode565

/-- And its per-pixel byte size, `CS.bytesize` (10_state.md R26). -/
def PixelFormat.bytesize : PixelFormat → Nat
  | .format16 => 2

/-! ## Framebuffer geometry and pixels (43_framebuffer.md R220, R221, R224) -/

/-- `fb_dims()` for a value of MV. -/
def fbDims (cfg : Config) (mv : Bool) : Nat × Nat :=
  if mv then (cfg.panelH, cfg.panelW) else (cfg.panelW, cfg.panelH)

/-- Where a source pixel lands, if inside the buffer: the clip and the cell index of R221. -/
def blitIndex (dims : Nat × Nat) (x y : Int) (sx sy : Nat) : Option Nat :=
  let dx := x + sx
  let dy := y + sy
  if 0 ≤ dx ∧ dx < dims.1 ∧ 0 ≤ dy ∧ dy < dims.2 then some (dy.toNat * dims.1 + dx.toNat) else none

/-- The cell writes of BLIT in source row-major order (R221). -/
def blitWrites (dims : Nat × Nat) (sw sh : Nat) (x y : Int) (src : List Pixel) : List (Nat × Pixel) :=
  (List.range sh).flatMap fun sy =>
    (List.range sw).filterMap fun sx =>
      match blitIndex dims x y sx sy, src[sy * sw + sx]? with
      | some i, some v => some (i, v)
      | _, _ => none

/-- `ser(v)` (R224). -/
def pixelBytes (order : ByteOrder) (v : Pixel) : List Byte :=
  match order with
  | .be => [v.extractLsb' 8 8, v.extractLsb' 0 8]
  | .le => [v.extractLsb' 0 8, v.extractLsb' 8 8]

/-- The bytes of the first `n` cells in index order (R223). -/
def flushBytes (order : ByteOrder) (fb : Memory) (n : Nat) : List Byte :=
  ((List.range n).filterMap fb.read).flatMap (pixelBytes order)

end Sys2Proof.Machine
end

