-- ==== Sys2Proof/Machine/Flags.lean ====
section
/-! DEFINITION. The block's one-bit status registers and the rest of the Controller State (10_state.md R21, R25 to R30):
what each kind of write does to them. The block has no condition codes (R21). -/

namespace Sys2Proof.Machine

/-- The state part of RESET (40_bus_transport.md R140): phase RESET, every field UNSET but `inverted`, which is never
written, and `unlocked`, which `UNLOCK_CLEARED_BY_RESET` clears. -/
def Controller.afterReset (unlockCleared : Bool) (cs : Controller) : Controller :=
  { cs with
    phase := .reset
    pixfmt := none
    my := none
    mx := none
    mv := none
    ml := none
    bgr := none
    mh := none
    colStart := none
    colEnd := none
    rowStart := none
    rowEnd := none
    sleeping := none
    idle := none
    displayOn := none
    unlocked := if unlockCleared then false else cs.unlocked }

/-- The six orientation fields (10_state.md R27). -/
def Controller.withOrientation (o : Orientation) (cs : Controller) : Controller :=
  { cs with
    my := some o.my
    mx := some o.mx
    mv := some o.mv
    ml := some o.ml
    bgr := some o.bgr
    mh := some o.mh }

/-- The window pair of one axis (10_state.md R28). -/
def Controller.withWindow (axis : Axis) (start stop : Half) (cs : Controller) : Controller :=
  match axis with
  | .col => { cs with colStart := some start, colEnd := some stop }
  | .row => { cs with rowStart := some start, rowEnd := some stop }

/-- `CS.bytesize`; `none` where the pixel format is UNSET (10_state.md R26). -/
def Controller.bytesize (cs : Controller) : Option Nat := cs.pixfmt.map PixelFormat.bytesize

end Sys2Proof.Machine
end

