-- ==== Sys2Proof/Machine/Color.lean ====
section
/-! DEFINITION. The colour converter's host operation (42_color.md R211). -/

namespace Sys2Proof.Machine

/-- ENCODE (R211): the function bound to the pixel format; the response is the value, high byte first. -/
def execEncode (r g b : Byte) (s : State) : Result :=
  match s.cs.pixfmt with
  | none => .fault .unsetState
  | some fmt => returnOk (Half.bytes (fmt.encodeColor r g b)) s

end Sys2Proof.Machine
end

