-- ==== Sys2Proof/Machine/Commands.lean ====
section
/-! DEFINITION. The bus commands (30_encoding.md R100 to R127): what the block does when it issues one. Each is the
frame with the parameters its rule gives, the delay the rule puts after it, and the write to the Controller State it
tracks. The host operations are built from these; the BUSCMD rows of the opcode table run one alone (log 5, log 7). -/

namespace Sys2Proof.Machine

/-! ## Commands that track Controller State -/

/-- Software reset with the state it makes UNSET (R101, 40_bus_transport.md R140). -/
def softwareReset (s : State) : State :=
  (swReset s).modifyCs (Controller.afterReset s.cfg.unlockClearedByReset)

/-- Hardware reset with the state it makes UNSET (40_bus_transport.md R140). -/
def hardwareReset (s : State) : State :=
  (hwReset s).modifyCs (Controller.afterReset s.cfg.unlockClearedByReset)

def sleepIn (s : State) : State := (frameWrite 0x10 [] s).modifyCs fun cs => { cs with sleeping := some true }

def sleepOut (s : State) : State :=
  (delay 120 (frameWrite 0x11 [] s)).modifyCs fun cs => { cs with sleeping := some false }

/-- Display off by the opcode `op` (R108, 41_controller.md R175). -/
def displayOff (op : Byte) (s : State) : State :=
  (frameWrite op [] s).modifyCs fun cs => { cs with displayOn := some false }

def displayOn (s : State) : State := (frameWrite 0x29 [] s).modifyCs fun cs => { cs with displayOn := some true }

/-- `write_window(axis, s, e)` (41_controller.md R162). -/
def writeWindow (axis : Axis) (start stop : Half) (s : State) : State :=
  (frameWrite (axisOpcode axis) (windowParams start stop) s).modifyCs (Controller.withWindow axis start stop)

/-- Memory-access-control with the byte `m` (R114). -/
def writeOrientation (m : Byte) (s : State) : State :=
  (frameWrite 0x36 [m] s).modifyCs (Controller.withOrientation (Orientation.ofByte m))

def idleOff (s : State) : State := (frameWrite 0x38 [] s).modifyCs fun cs => { cs with idle := some false }

def idleOn (s : State) : State := (frameWrite 0x39 [] s).modifyCs fun cs => { cs with idle := some true }

/-- Pixel-format-set for FORMAT16 (R117). -/
def setFormat16 (s : State) : State :=
  (frameWrite 0x3A [s.cfg.pf16Code] s).modifyCs fun cs => { cs with pixfmt := some .format16 }

/-- Read-display-status and the orientation fields it writes (R103, 41_controller.md R172); the four bytes read. -/
def readStatus (s : State) : List Byte × State :=
  let (bytes, t) := frameRead 0x09 4 s
  (bytes, t.modifyCs (Controller.withOrientation (statusDecode s.cfg.statusLayout (statusWord bytes)).orientation))

/-! ## The unlock sequence (41_controller.md R167) -/

/-- `ensure_unlocked()`. -/
def ensureUnlocked (s : State) : State :=
  if s.cs.unlocked then s
  else (frameWrite 0xB6 [0x07] (frameWrite 0xEF [] (frameWrite 0xFE [] s))).modifyCs fun cs => { cs with unlocked := true }

/-! ## The BUSCMD rows -/

/-- A bus command ends: it is no host request, so it is given no response (log 7). -/
def commandDone (s : State) : Result := .next s

def execCmd00 (count : Word) (s : State) : Result := commandDone (frameRead 0x00 count.toNat s).2

def execCmd01 (s : State) : Result := commandDone (softwareReset s)

def execCmd04 (count : Word) (s : State) : Result := commandDone (frameRead 0x04 count.toNat s).2

def execCmd09 (s : State) : Result := commandDone (readStatus s).2

def execCmd10 (s : State) : Result := commandDone (sleepIn s)

def execCmd11 (s : State) : Result := commandDone (sleepOut s)

def execCmd12 (params : List Byte) (s : State) : Result := commandDone (frameWrite 0x12 params s)

def execCmd13 (s : State) : Result := commandDone (frameWrite 0x13 [] s)

def execCmd28 (s : State) : Result := commandDone (displayOff 0x28 s)

def execCmd29 (s : State) : Result := commandDone (displayOn s)

def execCmd2A (start stop : Half) (s : State) : Result := commandDone (writeWindow .col start stop s)

def execCmd2B (start stop : Half) (s : State) : Result := commandDone (writeWindow .row start stop s)

def execCmd2C (bytes : List Byte) (s : State) : Result := commandDone (frameWrite 0x2C bytes s)

def execCmd30 (params : List Byte) (s : State) : Result := commandDone (frameWrite 0x30 params s)

def execCmd36 (orientation : Orientation) (s : State) : Result := commandDone (writeOrientation orientation.byte s)

def execCmd38 (s : State) : Result := commandDone (idleOff s)

def execCmd39 (s : State) : Result := commandDone (idleOn s)

def execCmd3A (s : State) : Result := commandDone (setFormat16 s)

def execCmdA3 (value : Byte) (s : State) : Result := commandDone (frameWrite 0xA3 [value] s)

def execCmdB4 (params : List Byte) (s : State) : Result := commandDone (frameWrite 0xB4 params s)

def execCmdB6 (s : State) : Result := commandDone (frameWrite 0xB6 [0x07] s)

def execCmdDA (count : Word) (s : State) : Result := commandDone (frameRead 0xDA count.toNat s).2

def execCmdDB (count : Word) (s : State) : Result := commandDone (frameRead 0xDB count.toNat s).2

def execCmdDC (count : Word) (s : State) : Result := commandDone (frameRead 0xDC count.toNat s).2

def execCmdEF (s : State) : Result := commandDone (frameWrite 0xEF [] s)

def execCmdF0 (params : List Byte) (s : State) : Result := commandDone (frameWrite 0xF0 params s)

def execCmdF1 (params : List Byte) (s : State) : Result := commandDone (frameWrite 0xF1 params s)

def execCmdFE (s : State) : Result := commandDone (frameWrite 0xFE [] s)

end Sys2Proof.Machine
end

