-- ==== Sys2Proof/Machine/Controller.lean ====
section
/-! DEFINITION. The controller's host operations (41_controller.md R160 to R176). -/

namespace Sys2Proof.Machine

/-- The window of one axis from 0 to the maximum extent under `mv` (R162). -/
def writeFullWindow (axis : Axis) (mv : Bool) (s : State) : State :=
  writeWindow axis 0 (BitVec.ofNat 16 (maxEnd s.cfg axis mv)) s

/-- INIT (R160), in the fixed order of the power-up chain; the window reset takes the extents for MV = 0 (92 D18). -/
def execInit (s : State) : Result :=
  let cfg := s.cfg
  let s := hardwareReset s
  let s := setFormat16 s
  let s := frameWrite 0x13 [] s
  let s := writeFullWindow .col false s
  let s := writeFullWindow .row false s
  let s := writeOrientation cfg.orientDefault s
  let s := if cfg.initUnlocks then ensureUnlocked s else s
  let s := frameWrite 0xA3 [0x00] s
  let s := idleOff s
  let s := sleepOut s
  let s := displayOn s
  let s := s.modifyCs fun cs => { cs with phase := .configured }
  returnOk [] s

/-- SETPIXFMT (R161). -/
def execSetpixfmt (fmt : Byte) (s : State) : Result :=
  if fmt = 0 then returnOk [] (setFormat16 s) else raise .unsupportedFormat s

/-- SETWIN (R163). -/
def execSetwin (axis : Axis) (start stop : Word) (s : State) : Result :=
  match resolveEnd axis stop s with
  | none => .fault .unsetState
  | some stop =>
    if windowLegal start.toInt stop then
      returnOk [] (writeWindow axis (BitVec.ofInt 16 start.toInt) (BitVec.ofInt 16 stop) s)
    else raise .invalidArgument s

/-- SETORIENT (R166): the status read gives the three bits that are kept, the preset the other three. -/
def execSetorient (preset : Byte) (keepWindow : Bool) (s : State) : Result :=
  if preset.toNat > 7 then raise .invalidArgument s
  else
    let (bytes, s) := readStatus s
    let seen := (statusDecode s.cfg.statusLayout (statusWord bytes)).orientation
    let o := presetOrientation preset seen.ml seen.bgr seen.mh
    let s := writeOrientation o.byte s
    let s := if keepWindow then s else writeFullWindow .row o.mv (writeFullWindow .col o.mv s)
    returnOk [] s

/-- SETFRAMERATE (R168): unlock first, then the check. -/
def execSetframerate (value : Word) (s : State) : Result :=
  let s := ensureUnlocked s
  if frameRateLegal s.cfg.frMask value then returnOk [] (frameWrite 0xA3 [value.setWidth 8] s)
  else raise .invalidArgument s

/-- SETGAMMA (R169): unlock first, then the check. -/
def execSetgamma (coeffs : List Word) (s : State) : Result :=
  let s := ensureUnlocked s
  match Config.gammaEncode (coeffs.map BitVec.toInt) with
  | none => raise .invalidArgument s
  | some (p0, p1) => returnOk [] (frameWrite 0xF1 p1 (frameWrite 0xF0 p0 s))

/-- SETINVCTL (R170): unlock first, then the checks. -/
def execSetinvctl (mode colorfix : Word) (s : State) : Result :=
  let s := ensureUnlocked s
  match invEncode mode.toNat colorfix.toNat with
  | none => raise .invalidArgument s
  | some params => returnOk [] (frameWrite 0xB4 params s)

/-- RDSTATUS (R172): the response data are the four bytes; the snapshot is `statusDecode` of them. -/
def execRdstatus (s : State) : Result :=
  let (bytes, s) := readStatus s
  returnOk bytes s

/-- WRPIXELS (R173). -/
def execWrpixels (bytes : List Byte) (s : State) : Result :=
  match s.cs.bytesize with
  | none => .fault .unsetState
  | some size =>
    if bytes.length % size = 0 then returnOk [] (frameWrite 0x2C bytes s) else raise .invalidArgument s

/-- SLEEP (R174). -/
def execSleep (on : Bool) (s : State) : Result := returnOk [] (if on then sleepIn s else sleepOut s)

/-- DISPLAY (R175). -/
def execDisplay (on : Bool) (s : State) : Result :=
  returnOk [] (if on then displayOn s else displayOff s.cfg.displayOffOpcode s)

/-- IDLE (R176). -/
def execIdle (on : Bool) (s : State) : Result := returnOk [] (if on then idleOn s else idleOff s)

end Sys2Proof.Machine
end

