-- ==== Sys2Proof/Machine/Framebuffer.lean ====
section
/-! DEFINITION. The framebuffer engine's host operations (43_framebuffer.md R221 to R223). -/

namespace Sys2Proof.Machine

/-- BLIT (R221): MV is read first, then the list's length is checked, then the clipped pixels are written. -/
def execBlit (sw sh x y : Half) (src : List Pixel) (s : State) : Result :=
  match s.cs.mv with
  | none => .fault .unsetState
  | some mv =>
    if src.length = sw.toNat * sh.toNat then
      returnOk [] (s.setFb (s.fb.writeAll (blitWrites (fbDims s.cfg mv) sw.toNat sh.toNat x.toInt y.toInt src)))
    else .refused .badRequest

/-- FILL (R222). -/
def execFill (color : Pixel) (s : State) : Result := returnOk [] (s.setFb (Memory.filled s.cfg.cells color))

/-- FLUSH (R223): the pixel format is read first, then every cell must be written. -/
def execFlush (s : State) : Result :=
  match s.cs.bytesize with
  | none => .fault .unsetState
  | some _ =>
    if s.fb.allWritten s.cfg.cells then
      returnOk [] (frameWrite 0x2C (flushBytes s.cfg.pixelByteOrder s.fb s.cfg.cells) s)
    else .fault .unwrittenPixel

end Sys2Proof.Machine
end

