-- ==== Sys2Proof/Machine/Transport.lean ====
section
/-! DEFINITION. The bus transport's host operations (40_bus_transport.md R140, R142, R145). -/

namespace Sys2Proof.Machine

/-- RESET (R140): the hardware reset first; with neither flag nothing happens. -/
def execReset (hw sw : Bool) (s : State) : Result :=
  let s := if hw then hardwareReset s else s
  let s := if sw then softwareReset s else s
  returnOk [] s

/-- WRCMD (R142). -/
def execWrcmd (opcode : Byte) (params : List Byte) (s : State) : Result :=
  if opcode ∈ trackedOpcodes then .refused .rawStateful
  else returnOk [] (frameWrite opcode params s)

/-- RDREG (R145): the Controller State is not written, whatever the opcode. -/
def execRdreg (opcode : Byte) (count : Word) (s : State) : Result :=
  if opcode ∈ trackedOpcodes then .refused .rawStateful
  else
    let (bytes, t) := frameRead opcode count.toNat s
    returnOk bytes t

end Sys2Proof.Machine
end

