-- ==== Sys2Proof/Machine/Dispatch.lean ====
section
/-! DEFINITION. One arm per instruction. -/

namespace Sys2Proof.Machine

def exec (i : Instr) (s : State) : Host.Outcome State Fault Refusal :=
  match i with
  | .reset hw sw => Sys2Proof.Machine.execReset hw sw s
  | .wrcmd opcode params => Sys2Proof.Machine.execWrcmd opcode params s
  | .rdreg opcode count => Sys2Proof.Machine.execRdreg opcode count s
  | .init => Sys2Proof.Machine.execInit s
  | .setpixfmt fmt => Sys2Proof.Machine.execSetpixfmt fmt s
  | .setwin axis start stop => Sys2Proof.Machine.execSetwin axis start stop s
  | .setorient preset keepWindow => Sys2Proof.Machine.execSetorient preset keepWindow s
  | .setframerate value => Sys2Proof.Machine.execSetframerate value s
  | .setgamma coeffs => Sys2Proof.Machine.execSetgamma coeffs s
  | .setinvctl mode colorfix => Sys2Proof.Machine.execSetinvctl mode colorfix s
  | .rdstatus => Sys2Proof.Machine.execRdstatus s
  | .wrpixels bytes => Sys2Proof.Machine.execWrpixels bytes s
  | .sleep on => Sys2Proof.Machine.execSleep on s
  | .display on => Sys2Proof.Machine.execDisplay on s
  | .idle on => Sys2Proof.Machine.execIdle on s
  | .encode r g b => Sys2Proof.Machine.execEncode r g b s
  | .blit sw sh x y src => Sys2Proof.Machine.execBlit sw sh x y src s
  | .fill color => Sys2Proof.Machine.execFill color s
  | .flush => Sys2Proof.Machine.execFlush s
  | .cmd00 count => Sys2Proof.Machine.execCmd00 count s
  | .cmd01 => Sys2Proof.Machine.execCmd01 s
  | .cmd04 count => Sys2Proof.Machine.execCmd04 count s
  | .cmd09 => Sys2Proof.Machine.execCmd09 s
  | .cmd10 => Sys2Proof.Machine.execCmd10 s
  | .cmd11 => Sys2Proof.Machine.execCmd11 s
  | .cmd12 params => Sys2Proof.Machine.execCmd12 params s
  | .cmd13 => Sys2Proof.Machine.execCmd13 s
  | .cmd28 => Sys2Proof.Machine.execCmd28 s
  | .cmd29 => Sys2Proof.Machine.execCmd29 s
  | .cmd2A start stop => Sys2Proof.Machine.execCmd2A start stop s
  | .cmd2B start stop => Sys2Proof.Machine.execCmd2B start stop s
  | .cmd2C bytes => Sys2Proof.Machine.execCmd2C bytes s
  | .cmd30 params => Sys2Proof.Machine.execCmd30 params s
  | .cmd36 orientation => Sys2Proof.Machine.execCmd36 orientation s
  | .cmd38 => Sys2Proof.Machine.execCmd38 s
  | .cmd39 => Sys2Proof.Machine.execCmd39 s
  | .cmd3A => Sys2Proof.Machine.execCmd3A s
  | .cmdA3 value => Sys2Proof.Machine.execCmdA3 value s
  | .cmdB4 params => Sys2Proof.Machine.execCmdB4 params s
  | .cmdB6 => Sys2Proof.Machine.execCmdB6 s
  | .cmdDA count => Sys2Proof.Machine.execCmdDA count s
  | .cmdDB count => Sys2Proof.Machine.execCmdDB count s
  | .cmdDC count => Sys2Proof.Machine.execCmdDC count s
  | .cmdEF => Sys2Proof.Machine.execCmdEF s
  | .cmdF0 params => Sys2Proof.Machine.execCmdF0 params s
  | .cmdF1 params => Sys2Proof.Machine.execCmdF1 params s
  | .cmdFE => Sys2Proof.Machine.execCmdFE s

end Sys2Proof.Machine
end

