-- ==== Sys2Proof/Machine/Step.lean ====
section
/-! DEFINITION. One step of the block: one host request run to completion (20_memory.md R69, R73), or the bus command
that stands in the in-flight slot (log 5). -/

namespace Sys2Proof.Machine

/-- What stands next before the block: the in-flight command, else the host's next request. -/
def State.pending (s : State) : Option Message :=
  match s.inflight, s.requests with
  | some bytes, _ => some (.command bytes)
  | none, bytes :: _ => some (.request bytes)
  | none, [] => none

/-- The state once that message is taken. -/
def State.take (s : State) : Message → State
  | .request _ => { s with requests := s.requests.tail }
  | .command _ => { s with inflight := none }

/-- What a message that no row describes is answered with (30_encoding.md R130; log 6). -/
def undecodable : Message → Refusal
  | .request _ => .badRequest
  | .command _ => .badCommand

/-- One step. A marked state takes no further step (60_exceptions.md R244, R245); with nothing pending the block waits
(70_reset_and_hazards.md R270; log 12). -/
def step (s : State) : Host.Outcome State Fault Refusal :=
  match s.faultMark with
  | some r => .fault r
  | none =>
    if s.refusedMark then .refused .stopped
    else
      match s.pending with
      | none => .next s
      | some m =>
        match decode m with
        | some i => exec i (s.take m)
        | none => .refused (undecodable m)

/-- The state with a table word standing next (log 8, log 10). -/
def State.withFetchWord (s : State) (nbits w : Nat) : State :=
  match tableMessage nbits w with
  | .request bytes => { s with requests := bytes :: s.requests, inflight := none }
  | .command bytes => { s with inflight := some bytes }

end Sys2Proof.Machine
end

