-- ==== Sys2Proof/Safety.lean ====
section
/-! DEFINITION. What claims about the block are stated in: the shape of an operation's effect, the invariants of a run,
and what the bus trace says was sent to the panel. -/

namespace Sys2Proof.Machine

/-! ## Runs with their marks (60_exceptions.md R244, R245) -/

/-- One step of a run that records how it went wrong: total, and a marked state stays as it is. -/
def runStep (s : State) : State :=
  if s.faultMark.isSome || s.refusedMark then s else s.record (step s)

/-! ## The shape of an effect -/

/-- The idle levels of 10_state.md R24; D[7:0] is any value. -/
def Pins.idle (p : Pins) : Bool := p.csn && p.wrn && p.rdn && p.dc && p.resetn && p.dir = .output

/-- What every effect has in common: the events appended, idle lines idle again, and the configuration, the host's
list, the in-flight slot and the marks as they were. -/
structure Emitted (s t : State) (events : List Event) : Prop where
  trace : t.trace = s.trace ++ events
  pins : s.pins.idle = true → t.pins.idle = true
  cfg : t.cfg = s.cfg
  requests : t.requests = s.requests
  inflight : t.inflight = s.inflight
  faultMark : t.faultMark = s.faultMark
  refusedMark : t.refusedMark = s.refusedMark

/-- A host operation that ended with a response (30_encoding.md R83): its events, the response, the host's position one
further (10_state.md R20). -/
structure Answers (s t : State) (events : List Event) (r : Response) : Prop extends Emitted s t events where
  responses : t.responses = s.responses ++ [r]
  pc : t.pc = s.pc + 1

/-- A bus command that ended: its events, and no response. -/
structure Issues (s t : State) (events : List Event) : Prop extends Emitted s t events where
  responses : t.responses = s.responses
  pc : t.pc = s.pc

/-- A host operation that emitted nothing: the state is as it was but for the response and the host's position. -/
def answered (r : Response) (s : State) : State := { s with responses := s.responses ++ [r], pc := s.pc + 1 }

/-- `bytes` are what the oracle answers to the next read pulses (20_memory.md R65): its list in order, and any bytes
once that is used up. -/
def OracleAnswers (s : State) (bytes : List Byte) : Prop := bytes.take s.panel.length = s.panel.take bytes.length

/-! ## Instructions by kind -/

/-- A host operation (30_encoding.md R80), as against a bus command. -/
def isHostOp (i : Instr) : Bool :=
  match encode i with
  | .request _ => true
  | .command _ => false

/-- The privileged host operations that check after unlocking (60_exceptions.md R242). -/
def isPrivileged : Instr → Bool
  | .setframerate _ => true
  | .setgamma _ => true
  | .setinvctl _ _ => true
  | _ => false

/-! ## Undefined requests (30_encoding.md R81, R84, R130) -/

/-- The number that a big-endian field of a byte string holds. -/
def fieldNat (bytes : List Byte) : Nat := bytes.foldl (fun n b => n * 256 + b.toNat) 0

/-- The request length of R81 for a request that begins with these bytes; where the string ends before a length field
does, the length of the fixed fields. -/
def requestLength : List Byte → Nat
  | [] => 1
  | op :: rest =>
    if op = 0x01 then 2
    else if op = 0x02 then 6 + (if 5 ≤ rest.length then fieldNat ((rest.drop 1).take 4) else 0)
    else if op = 0x03 then 6
    else if op = 0x11 then 2
    else if op = 0x12 then 10
    else if op = 0x13 then 3
    else if op = 0x14 then 5
    else if op = 0x15 then 117
    else if op = 0x16 then 9
    else if op = 0x18 then 5 + (if 4 ≤ rest.length then fieldNat (rest.take 4) else 0)
    else if op = 0x19 ∨ op = 0x1A ∨ op = 0x1B then 2
    else if op = 0x20 then 4
    else if op = 0x30 then
      9 + (if 4 ≤ rest.length then 2 * (fieldNat (rest.take 2) * fieldNat ((rest.drop 2).take 2)) else 0)
    else if op = 0x31 then 3
    else 1

/-- The host op codes of R80. -/
def hostOpCodes : List Byte :=
  [0x01, 0x02, 0x03, 0x10, 0x11, 0x12, 0x13, 0x14, 0x15, 0x16, 0x17, 0x18, 0x19, 0x1A, 0x1B, 0x20, 0x30, 0x31, 0x32]

/-- R130's undefined requests: an op code not in R80, a request shorter than its layout, a reserved flag bit, a SETWIN
axis of 2..255. -/
inductive UndefinedRequest : List Byte → Prop where
  | short (bytes : List Byte) (h : bytes.length < requestLength bytes) : UndefinedRequest bytes
  | opCode (op : Byte) (rest : List Byte) (h : op ∉ hostOpCodes) : UndefinedRequest (op :: rest)
  | resetFlags (f : Byte) (rest : List Byte) (h : f &&& 0xFC ≠ 0) : UndefinedRequest (0x01 :: f :: rest)
  | orientFlags (p f : Byte) (rest : List Byte) (h : f &&& 0xFE ≠ 0) : UndefinedRequest (0x13 :: p :: f :: rest)
  | onFlags (op f : Byte) (rest : List Byte) (ho : op ∈ [0x19#8, 0x1A#8, 0x1B#8]) (h : f &&& 0xFE ≠ 0) :
    UndefinedRequest (op :: f :: rest)
  | axis (a : Byte) (rest : List Byte) (h : 2 ≤ a.toNat) : UndefinedRequest (0x12 :: a :: rest)

/-! ## Invariants -/

/-- 10_state.md R31 for one axis. -/
def windowOrdered : Option Half → Option Half → Bool
  | some start, some stop => start.toNat < stop.toNat
  | _, _ => true

/-- What holds between host operations: legal parameters, idle lines (R24), ordered windows (R31), `inverted` never
written (R29), the framebuffer canonical and within its N cells (R33, 20_memory.md R60), no command in flight (R35),
one response for each position passed (R20). -/
structure State.Inv (s : State) : Prop where
  cfg : s.cfg.wf = true
  pins : s.pins.idle = true
  colWindow : windowOrdered s.cs.colStart s.cs.colEnd = true
  rowWindow : windowOrdered s.cs.rowStart s.cs.rowEnd = true
  inverted : s.cs.inverted = none
  fbCanonical : s.fb.wf = true
  fbInside : ∀ cell ∈ s.fb, cell.1 < s.cfg.cells
  inflight : s.inflight = none
  counted : s.pc = s.responses.length

/-! ## What the trace says -/

/-- Which levels an event may be emitted at (20_memory.md R64). -/
def eventLegal (p : Pins) : Event → Bool
  | .wr _ => !p.csn && p.dir = .output
  | .rd _ => !p.csn && p.dir = .input
  | .dirIn | .dirOut => !p.csn
  | .rstLow | .rstHigh => p.csn
  | .csAssert | .csDeassert | .dcCmd | .dcData | .delay _ => true

/-- The levels a trace leaves, from the levels before it; D[7:0] is not followed. -/
def levelsAfter (p : Pins) (trace : List Event) : Pins := trace.foldl (fun p e => { p.after e 0 with d := p.d }) p

/-- Every event of a trace is emitted at the levels R64 asks for. -/
def traceLegal (p : Pins) : List Event → Bool
  | [] => true
  | e :: rest => eventLegal p e && traceLegal { p.after e 0 with d := p.d } rest

/-- The trace is legal from power-on, and it accounts for every level but D[7:0] (20_memory.md R63, R64). -/
structure State.TraceInv (s : State) : Prop where
  legal : traceLegal Pins.reset s.trace = true
  levels : levelsAfter Pins.reset s.trace = { s.pins with d := Pins.reset.d }
  idle : s.pins.idle = true

/-- What the tracked commands last sent since the last panel reset: the parameters of pixel-format-set and of
memory-access-control, the bounds of the two address-sets, and the three power flags (30_encoding.md R101, R104, R105,
R108 to R111, R114 to R117). -/
structure Sent where
  pixfmt : Option Byte
  col : Option (Half × Half)
  row : Option (Half × Half)
  orientation : Option Byte
  sleeping : Option Bool
  idle : Option Bool
  displayOn : Option Bool
  deriving DecidableEq, Repr

def Sent.nothing : Sent := ⟨none, none, none, none, none, none, none⟩

/-- The bounds that four address-set parameters carry. -/
def Sent.bounds : List Byte → Option (Half × Half)
  | [a, b, c, d] => some (Half.ofBytes a b, Half.ofBytes c d)
  | _ => none

/-- A whole write frame reaches the panel. -/
def Sent.frame (m : Sent) (op : Byte) (params : List Byte) : Sent :=
  if op = 0x01 then Sent.nothing
  else if op = 0x10 then { m with sleeping := some true }
  else if op = 0x11 then { m with sleeping := some false }
  else if op = 0x28 then { m with displayOn := some false }
  else if op = 0x29 then { m with displayOn := some true }
  else if op = 0x2A then { m with col := Sent.bounds params }
  else if op = 0x2B then { m with row := Sent.bounds params }
  else if op = 0x36 then { m with orientation := params.head? }
  else if op = 0x38 then { m with idle := some false }
  else if op = 0x39 then { m with idle := some true }
  else if op = 0x3A then { m with pixfmt := params.head? }
  else m

/-- A listener on the bus: the frame in progress and what was sent before it. -/
structure Listener where
  op : Option Byte
  params : List Byte
  dataPhase : Bool
  sent : Sent
  deriving DecidableEq, Repr

def Listener.start : Listener := ⟨none, [], true, Sent.nothing⟩

def Listener.hear (l : Listener) : Event → Listener
  | .csAssert => { l with op := none, params := [] }
  | .csDeassert =>
    match l.op with
    | some op => { l with op := none, params := [], sent := l.sent.frame op l.params }
    | none => l
  | .dcCmd => { l with dataPhase := false }
  | .dcData => { l with dataPhase := true }
  | .wr b => if l.dataPhase then { l with params := l.params ++ [b] } else { l with op := some b }
  | .rstLow => { l with sent := Sent.nothing }
  | .rd _ | .dirIn | .dirOut | .rstHigh | .delay _ => l

def listen (trace : List Event) : Listener := trace.foldl Listener.hear Listener.start

/-- The mirror invariant (10_state.md R32) for the fields the block alone writes: each is set exactly when the trace
holds its command since the last panel reset, to the value last sent. The display flag is one of them only with the
default `DISPLAY_OFF_OPCODE` (41_controller.md R175). -/
structure State.MirrorInv (s : State) : Prop where
  between : (listen s.trace).op = none
  pixfmt : (listen s.trace).sent.pixfmt = s.cs.pixfmt.map fun _ => s.cfg.pf16Code
  colStart : s.cs.colStart = (listen s.trace).sent.col.map Prod.fst
  colEnd : s.cs.colEnd = (listen s.trace).sent.col.map Prod.snd
  rowStart : s.cs.rowStart = (listen s.trace).sent.row.map Prod.fst
  rowEnd : s.cs.rowEnd = (listen s.trace).sent.row.map Prod.snd
  sleeping : s.cs.sleeping = (listen s.trace).sent.sleeping
  idle : s.cs.idle = (listen s.trace).sent.idle
  displayOn : s.cfg.displayOffOpcode = 0x28 → s.cs.displayOn = (listen s.trace).sent.displayOn

/-- The mirror of the orientation fields (10_state.md R32), which a status read breaks until the next
memory-access-control: each is its bit of the byte last sent since the last panel reset. -/
structure State.OrientMirror (s : State) : Prop where
  my : s.cs.my = (listen s.trace).sent.orientation.map (·.getLsbD 7)
  mx : s.cs.mx = (listen s.trace).sent.orientation.map (·.getLsbD 6)
  mv : s.cs.mv = (listen s.trace).sent.orientation.map (·.getLsbD 5)
  ml : s.cs.ml = (listen s.trace).sent.orientation.map (·.getLsbD 4)
  bgr : s.cs.bgr = (listen s.trace).sent.orientation.map (·.getLsbD 3)
  mh : s.cs.mh = (listen s.trace).sent.orientation.map (·.getLsbD 2)

/-- The events of the unlock sequence (41_controller.md R167): FE, EF, B6 with parameter 07. -/
def unlockEvents : List Event :=
  [.csAssert, .dcCmd, .wr 0xFE, .dcData, .csDeassert,
   .csAssert, .dcCmd, .wr 0xEF, .dcData, .csDeassert,
   .csAssert, .dcCmd, .wr 0xB6, .dcData, .wr 0x07, .csDeassert]

/-- A set `unlocked` means that the unlock sequence stands in the trace (70_reset_and_hazards.md R276). -/
def State.UnlockInv (s : State) : Prop := s.cs.unlocked = true → unlockEvents <:+: s.trace

end Sys2Proof.Machine
end

