-- ==== Sys2Proof/Certificates/Slice0/Obligations.lean ====
section
/-! DEFINITION. The statements for the provers. Each docstring names the rule it formalises. -/

open Sys2Proof Sys2Proof.Machine

/-! ## Power-on and the step -/

/-- R40: the power-on table; D[7:0] is unspecified there and is not stated here. What the block does then is
`BlockWaitsForRequest`. -/
def Obligations.PowerOnState : Prop :=
  (State.reset.pins.csn = true ∧ State.reset.pins.wrn = true ∧ State.reset.pins.rdn = true ∧
    State.reset.pins.dc = true ∧ State.reset.pins.resetn = true ∧ State.reset.pins.dir = .output) ∧
  State.reset.cs =
    { phase := .uninit, pixfmt := none, my := none, mx := none, mv := none, ml := none, bgr := none, mh := none,
      colStart := none, colEnd := none, rowStart := none, rowEnd := none,
      sleeping := none, idle := none, displayOn := none, inverted := none, unlocked := false } ∧
  (∀ i, State.reset.fb.read i = none) ∧
  State.reset.faultMark = none ∧ State.reset.refusedMark = false ∧ State.reset.trace = []

/-- The five invariants below hold at power-on; that the parameters are legal there and that no response has been given
is the model's choice (log 2, log 11). -/
def Obligations.PowerOnMeetsInvariants : Prop :=
  State.reset.Inv ∧ State.reset.TraceInv ∧ State.reset.MirrorInv ∧ State.reset.OrientMirror ∧ State.reset.UnlockInv

/-- A step runs the instruction that the next bytes decode to: the in-flight command's, else the next request's. That a
command stands in the in-flight slot is the model's choice (log 5), and so is a step's reading of the list (log 1). -/
def Obligations.StepRunsDecodedInstruction : Prop :=
  ∀ (s : State) (i : Instr) (bytes : List Byte), s.faultMark = none → s.refusedMark = false →
    (∀ rest, s.inflight = none → s.requests = bytes :: rest → decodeRequest bytes = some i →
      step s = exec i { s with requests := rest }) ∧
    (s.inflight = some bytes → decodeCommand bytes = some i → step s = exec i { s with inflight := none })

/-- With no request and no command in flight an unmarked state waits: the model's reading (log 12) of R270. -/
def Obligations.BlockWaitsForRequest : Prop :=
  ∀ s : State, s.faultMark = none → s.refusedMark = false → s.inflight = none → s.requests = [] → step s = .next s

/-- R37, R244, R245: an outcome that is no next state sets its mark and changes nothing else, and a marked state takes
no further step. How the marks stand beside the outcomes is the model's choice (log 14). -/
def Obligations.MarksStopTheBlock : Prop :=
  (∀ (s : State) (r : Fault), s.faultMark = none → s.refusedMark = false → step s = .fault r →
    runStep s = { s with faultMark := some r }) ∧
  (∀ (s : State) (r : Refusal), s.faultMark = none → s.refusedMark = false → step s = .refused r →
    runStep s = { s with refusedMark := true }) ∧
  (∀ s : State, s.faultMark.isSome = true ∨ s.refusedMark = true → runStep s = s ∧ ∀ t, step s ≠ .next t)

/-! ## Encoding -/

/-- Decoding an encoded well-formed instruction gives it back, for all 47 rows (R81, R82, R84; the stored layout of a bus
command is the model's choice, log 6). -/
def Obligations.DecodeEncodeAgree : Prop := ∀ i : Instr, i.wf = true → decode (encode i) = some i

/-- Bytes that decode with nothing left over are the encoding of what they decode to, and that is well-formed. The stored
layout of a bus command is the model's choice (log 6). -/
def Obligations.EncodeDecodeAgree : Prop :=
  ∀ (bytes : List Byte) (i : Instr),
    (decodeRows requestRows bytes = some (i, []) → encode i = .request bytes ∧ i.wf = true) ∧
    (decodeRows commandRows bytes = some (i, []) → encode i = .command bytes ∧ i.wf = true)

/-- R130: the requests that do not decode are the undefined ones, and those are refused with BAD_REQUEST. That a longer
request decodes, and that a truncated BLIT is refused whatever MV is, is the model's reading (log 9, log 13). -/
def Obligations.UndefinedRequestsRefused : Prop :=
  (∀ bytes : List Byte, decodeRequest bytes = none ↔ UndefinedRequest bytes) ∧
  (∀ (s : State) (bytes : List Byte) (rest : List (List Byte)), s.faultMark = none → s.refusedMark = false →
    s.inflight = none → s.requests = bytes :: rest → UndefinedRequest bytes → step s = .refused .badRequest)

/-- Words written out from R81 and R114 decode to the instructions they stand for (the bus command's layout: log 6). -/
def Obligations.WrittenOutWordsDecode : Prop :=
  decodeRequest [0x02, 0xB6, 0x00, 0x00, 0x00, 0x01, 0x07] = some (.wrcmd 0xB6 [0x07]) ∧
  decodeRequest [0x12, 0x00, 0x00, 0x00, 0x00, 0x12, 0x00, 0x00, 0x01, 0x34] = some (.setwin .col 0x12 0x134) ∧
  decodeRequest [0x20, 0x12, 0x34, 0x56] = some (.encode 0x12 0x34 0x56) ∧
  decodeRequest [0x30, 0x00, 0x01, 0x00, 0x01, 0x00, 0x01, 0x00, 0x03, 0xAB, 0xCD] = some (.blit 1 1 1 3 [0xABCD]) ∧
  decodeCommand [0x36, 0x38] = some (.cmd36 ⟨false, false, true, true, true, false⟩)

/-! ## Bus transport -/

/-- R141: `frame_write(op, P)` emits `len(P) + 5` events. -/
def Obligations.WriteFrameEvents : Prop :=
  ∀ (op : Byte) (params : List Byte) (s : State), ∃ events : List Event,
    events = [.csAssert, .dcCmd, .wr op, .dcData] ++ params.map .wr ++ [.csDeassert] ∧
    events.length = params.length + 5 ∧ Emitted s (frameWrite op params s) events ∧
    (frameWrite op params s).pins.dir = s.pins.dir ∧
    (frameWrite op params s).cs = s.cs ∧ (frameWrite op params s).fb = s.fb ∧
    (frameWrite op params s).panel = s.panel ∧
    (frameWrite op params s).responses = s.responses ∧ (frameWrite op params s).pc = s.pc

/-- R144: `frame_read(op, n)` emits `n + 8` events, and returns the `n` bytes after the dummy. -/
def Obligations.ReadFrameEvents : Prop :=
  ∀ (op : Byte) (n : Nat) (s : State), ∃ (d : Byte) (events : List Event),
    (frameRead op n s).1.length = n ∧ OracleAnswers s (d :: (frameRead op n s).1) ∧
    events = [.csAssert, .dcCmd, .wr op, .dcData, .dirIn, .rd d] ++ (frameRead op n s).1.map .rd ++
      [.dirOut, .csDeassert] ∧
    events.length = n + 8 ∧ Emitted s (frameRead op n s).2 events ∧
    (frameRead op n s).2.pins.dir = .output ∧
    (frameRead op n s).2.cs = s.cs ∧ (frameRead op n s).2.fb = s.fb ∧
    (frameRead op n s).2.panel = s.panel.drop (n + 1) ∧
    (frameRead op n s).2.responses = s.responses ∧ (frameRead op n s).2.pc = s.pc

/-- R140 (with R147, R148): RESET. -/
def Obligations.ResetOperation : Prop :=
  (∀ (hw sw : Bool) (s : State),
    decodeRequest [0x01, (if hw then 0x01 else 0x00) ||| (if sw then 0x02 else 0x00)] = some (.reset hw sw) ∧
    ∃ t, exec (.reset hw sw) s = .next t ∧
      Answers s t
        ((if hw then [.rstLow, .delay 5, .rstHigh, .delay 15] else []) ++
          (if sw then writeFrame 0x01 [] ++ [.delay 5] else [])) ⟨.ok, []⟩ ∧
      t.fb = s.fb ∧ t.panel = s.panel ∧
      (hw = false → sw = false → t = answered ⟨.ok, []⟩ s) ∧
      (hw = true ∨ sw = true → t.cs =
        { phase := .reset, pixfmt := none, my := none, mx := none, mv := none, ml := none, bgr := none, mh := none,
          colStart := none, colEnd := none, rowStart := none, rowEnd := none,
          sleeping := none, idle := none, displayOn := none, inverted := s.cs.inverted,
          unlocked := s.cs.unlocked && !s.cfg.unlockClearedByReset })) ∧
  (∀ (f : Byte) (rest : List Byte), f &&& 0xFC ≠ 0 → decodeRequest (0x01 :: f :: rest) = none)

/-- R142, R128: WRCMD; a tracked opcode is refused. -/
def Obligations.WriteCommandOperation : Prop :=
  ∀ (op : Byte) (params : List Byte) (s : State),
    (params.length < 2 ^ 32 →
      decodeRequest (0x02 :: op :: (Word.bytes (BitVec.ofNat 32 params.length) ++ params)) =
        some (.wrcmd op params)) ∧
    (op ∈ [0x01#8, 0x10#8, 0x11#8, 0x28#8, 0x29#8, 0x2A#8, 0x2B#8, 0x36#8, 0x38#8, 0x39#8, 0x3A#8] →
      exec (.wrcmd op params) s = .refused .rawStateful) ∧
    (op ∉ [0x01#8, 0x10#8, 0x11#8, 0x28#8, 0x29#8, 0x2A#8, 0x2B#8, 0x36#8, 0x38#8, 0x39#8, 0x3A#8] →
      ∃ t, exec (.wrcmd op params) s = .next t ∧ Answers s t (writeFrame op params) ⟨.ok, []⟩ ∧
        t.cs = s.cs ∧ t.fb = s.fb ∧ t.panel = s.panel)

/-- R145, R128: RDREG; a tracked opcode is refused. -/
def Obligations.ReadRegisterOperation : Prop :=
  ∀ (op : Byte) (count : Word) (s : State),
    decodeRequest (0x03 :: op :: Word.bytes count) = some (.rdreg op count) ∧
    (op ∈ [0x01#8, 0x10#8, 0x11#8, 0x28#8, 0x29#8, 0x2A#8, 0x2B#8, 0x36#8, 0x38#8, 0x39#8, 0x3A#8] →
      exec (.rdreg op count) s = .refused .rawStateful) ∧
    (op ∉ [0x01#8, 0x10#8, 0x11#8, 0x28#8, 0x29#8, 0x2A#8, 0x2B#8, 0x36#8, 0x38#8, 0x39#8, 0x3A#8] →
      ∃ t d bytes, exec (.rdreg op count) s = .next t ∧ bytes.length = count.toNat ∧ OracleAnswers s (d :: bytes) ∧
        Answers s t (readFrame op (d :: bytes)) ⟨.ok, bytes⟩ ∧
        t.pins.dir = .output ∧ t.cs = s.cs ∧ t.fb = s.fb ∧ t.panel = s.panel.drop (count.toNat + 1))

/-! ## Controller -/

/-- R160: INIT, its exact order of events and the Controller State it leaves. -/
def Obligations.InitOperation : Prop :=
  decodeRequest [0x10] = some .init ∧
  ∀ s : State, ∃ t, exec .init s = .next t ∧
    Answers s t
      ([.rstLow, .delay 5, .rstHigh, .delay 15] ++
        writeFrame 0x3A [s.cfg.pf16Code] ++ writeFrame 0x13 [] ++
        writeFrame 0x2A ([0x00, 0x00] ++
          Half.bytes (BitVec.ofNat 16 (s.cfg.panelW - if s.cfg.endMaxInclusive then 1 else 0))) ++
        writeFrame 0x2B ([0x00, 0x00] ++
          Half.bytes (BitVec.ofNat 16 (s.cfg.panelH - if s.cfg.endMaxInclusive then 1 else 0))) ++
        writeFrame 0x36 [s.cfg.orientDefault] ++
        (if s.cfg.initUnlocks ∧ ¬(s.cs.unlocked ∧ ¬s.cfg.unlockClearedByReset) then unlockEvents else []) ++
        writeFrame 0xA3 [0x00] ++ writeFrame 0x38 [] ++ writeFrame 0x11 [] ++ [.delay 120] ++ writeFrame 0x29 [])
      ⟨.ok, []⟩ ∧
    t.fb = s.fb ∧ t.panel = s.panel ∧
    t.cs =
      { phase := .configured, pixfmt := some .format16,
        my := some (s.cfg.orientDefault.getLsbD 7), mx := some (s.cfg.orientDefault.getLsbD 6),
        mv := some (s.cfg.orientDefault.getLsbD 5), ml := some (s.cfg.orientDefault.getLsbD 4),
        bgr := some (s.cfg.orientDefault.getLsbD 3), mh := some (s.cfg.orientDefault.getLsbD 2),
        colStart := some 0,
        colEnd := some (BitVec.ofNat 16 (s.cfg.panelW - if s.cfg.endMaxInclusive then 1 else 0)),
        rowStart := some 0,
        rowEnd := some (BitVec.ofNat 16 (s.cfg.panelH - if s.cfg.endMaxInclusive then 1 else 0)),
        sleeping := some false, idle := some false, displayOn := some true, inverted := s.cs.inverted,
        unlocked := s.cfg.initUnlocks || (s.cs.unlocked && !s.cfg.unlockClearedByReset) }

/-- R161: SETPIXFMT. -/
def Obligations.PixelFormatOperation : Prop :=
  ∀ (fmt : Byte) (s : State),
    decodeRequest [0x11, fmt] = some (.setpixfmt fmt) ∧
    (fmt = 0 → ∃ t, exec (.setpixfmt fmt) s = .next t ∧ Answers s t (writeFrame 0x3A [s.cfg.pf16Code]) ⟨.ok, []⟩ ∧
      t.cs = { s.cs with pixfmt := some .format16 } ∧ t.cs.bytesize = some 2 ∧
      (∀ r g b, PixelFormat.format16.encodeColor r g b = encode565 r g b) ∧ t.fb = s.fb ∧ t.panel = s.panel) ∧
    (fmt ≠ 0 → exec (.setpixfmt fmt) s = .next (answered ⟨.unsupportedFormat, []⟩ s))

/-- R163 (with R162): SETWIN, its end resolved to `stop'`; the fault, the error and the effect. -/
def Obligations.WindowOperation : Prop :=
  ∀ (axis : Axis) (start stop : Word) (s : State),
    decodeRequest (0x12 :: (if axis = .col then 0x00 else 0x01) :: (Word.bytes start ++ Word.bytes stop)) =
      some (.setwin axis start stop) ∧
    (stop.toInt < 0 → s.cs.mv = none → exec (.setwin axis start stop) s = .fault .unsetState) ∧
    ∀ stop' : Int,
      ((0 ≤ stop.toInt ∧ stop' = stop.toInt) ∨
        ∃ mv : Bool, stop.toInt < 0 ∧ s.cs.mv = some mv ∧
          stop' = ((if (axis = .col) ↔ mv = false then s.cfg.panelW else s.cfg.panelH) -
            (if s.cfg.endMaxInclusive then 1 else 0) : Nat)) →
      (start.toInt < 0 ∨ start.toInt > 0xFFFF ∨ stop' > 0xFFFF ∨ start.toInt ≥ stop' →
        exec (.setwin axis start stop) s = .next (answered ⟨.invalidArgument, []⟩ s)) ∧
      (0 ≤ start.toInt → start.toInt ≤ 0xFFFF → stop' ≤ 0xFFFF → start.toInt < stop' →
        ∃ t, exec (.setwin axis start stop) s = .next t ∧
          Answers s t
            (writeFrame (if axis = .col then 0x2A else 0x2B)
              [BitVec.ofInt 8 (start.toInt / 256), BitVec.ofInt 8 (start.toInt % 256),
               BitVec.ofInt 8 (stop' / 256), BitVec.ofInt 8 (stop' % 256)]) ⟨.ok, []⟩ ∧
          t.cs = (if axis = .col then
              { s.cs with colStart := some (BitVec.ofInt 16 start.toInt), colEnd := some (BitVec.ofInt 16 stop') }
            else
              { s.cs with rowStart := some (BitVec.ofInt 16 start.toInt), rowEnd := some (BitVec.ofInt 16 stop') }) ∧
          t.fb = s.fb ∧ t.panel = s.panel)

/-- R165: the orientation byte, and decoding it. -/
def Obligations.OrientationByteLayout : Prop :=
  ∀ o : Orientation,
    (o.byte.getLsbD 7 = o.my ∧ o.byte.getLsbD 6 = o.mx ∧ o.byte.getLsbD 5 = o.mv ∧ o.byte.getLsbD 4 = o.ml ∧
      o.byte.getLsbD 3 = o.bgr ∧ o.byte.getLsbD 2 = o.mh ∧ o.byte.getLsbD 1 = false ∧ o.byte.getLsbD 0 = false) ∧
    Orientation.ofByte o.byte = o

/-- R166 (with R164, R171): SETORIENT. The kept bits come from the panel's answer, the other three from the preset. -/
def Obligations.OrientOperation : Prop :=
  ∀ (preset : Byte) (keep : Bool) (s : State),
    decodeRequest [0x13, preset, if keep then 0x01 else 0x00] = some (.setorient preset keep) ∧
    (preset.toNat > 7 → exec (.setorient preset keep) s = .next (answered ⟨.invalidArgument, []⟩ s)) ∧
    (preset.toNat ≤ 7 → ∃ t d b0 b1 b2 b3, ∃ o : Orientation,
      exec (.setorient preset keep) s = .next t ∧ OracleAnswers s [d, b0, b1, b2, b3] ∧
      o = { mv := preset.getLsbD 2, my := preset.getLsbD 1, mx := preset.getLsbD 0,
            ml := (Word.ofBytes b0 b1 b2 b3).getLsbD s.cfg.statusLayout.ml,
            bgr := (Word.ofBytes b0 b1 b2 b3).getLsbD s.cfg.statusLayout.bgr,
            mh := (Word.ofBytes b0 b1 b2 b3).getLsbD s.cfg.statusLayout.mh } ∧
      Answers s t
        (readFrame 0x09 [d, b0, b1, b2, b3] ++ writeFrame 0x36 [o.byte] ++
          (if keep then [] else
            writeFrame 0x2A ([0x00, 0x00] ++ Half.bytes (BitVec.ofNat 16 (maxEnd s.cfg .col o.mv))) ++
            writeFrame 0x2B ([0x00, 0x00] ++ Half.bytes (BitVec.ofNat 16 (maxEnd s.cfg .row o.mv)))))
        ⟨.ok, []⟩ ∧
      t.cs =
        { s.cs with
          my := some o.my, mx := some o.mx, mv := some o.mv, ml := some o.ml, bgr := some o.bgr, mh := some o.mh
          colStart := if keep then s.cs.colStart else some 0
          colEnd := if keep then s.cs.colEnd else some (BitVec.ofNat 16 (maxEnd s.cfg .col o.mv))
          rowStart := if keep then s.cs.rowStart else some 0
          rowEnd := if keep then s.cs.rowEnd else some (BitVec.ofNat 16 (maxEnd s.cfg .row o.mv)) } ∧
      t.fb = s.fb ∧ t.panel = s.panel.drop 5)

/-- R167: the unlock sequence, sent at most once until `unlocked` is cleared. -/
def Obligations.UnlockSequence : Prop :=
  ∀ s : State,
    (s.cs.unlocked = true → ensureUnlocked s = s) ∧
    (s.cs.unlocked = false → Emitted s (ensureUnlocked s) unlockEvents ∧
      (ensureUnlocked s).cs = { s.cs with unlocked := true } ∧ (ensureUnlocked s).fb = s.fb ∧
      (ensureUnlocked s).panel = s.panel ∧ (ensureUnlocked s).responses = s.responses ∧ (ensureUnlocked s).pc = s.pc)

/-- R168 (with R167): SETFRAMERATE; the unlock frames come first, also before an error. -/
def Obligations.FrameRateOperation : Prop :=
  ∀ (value : Word) (s : State),
    decodeRequest (0x14 :: Word.bytes value) = some (.setframerate value) ∧
    (value.toNat ≤ 0xFF ∧ value.setWidth 8 &&& ~~~s.cfg.frMask = 0 →
      ∃ t, exec (.setframerate value) s = .next t ∧
        Answers s t ((if s.cs.unlocked then [] else unlockEvents) ++ writeFrame 0xA3 [value.setWidth 8]) ⟨.ok, []⟩ ∧
        t.cs = { s.cs with unlocked := true } ∧ t.fb = s.fb ∧ t.panel = s.panel) ∧
    (value.toNat > 0xFF ∨ value.setWidth 8 &&& ~~~s.cfg.frMask ≠ 0 →
      ∃ t, exec (.setframerate value) s = .next t ∧
        Answers s t (if s.cs.unlocked then [] else unlockEvents) ⟨.invalidArgument, []⟩ ∧
        t.cs = { s.cs with unlocked := true } ∧ t.fb = s.fb ∧ t.panel = s.panel)

/-- R169 (with R167): SETGAMMA, for every `GAMMA_ENCODE`; `none` is its InvalidArgument. -/
def Obligations.GammaOperation : Prop :=
  ∀ (coeffs : List Word) (s : State),
    (coeffs.length = 29 → decodeRequest (0x15 :: coeffs.flatMap Word.bytes) = some (.setgamma coeffs)) ∧
    ∃ t, exec (.setgamma coeffs) s = .next t ∧
      Answers s t
        ((if s.cs.unlocked then [] else unlockEvents) ++
          match Config.gammaEncode (coeffs.map BitVec.toInt) with
          | some (p0, p1) => writeFrame 0xF0 p0 ++ writeFrame 0xF1 p1
          | none => [])
        (match Config.gammaEncode (coeffs.map BitVec.toInt) with
          | some _ => ⟨.ok, []⟩
          | none => ⟨.invalidArgument, []⟩) ∧
      t.cs = { s.cs with unlocked := true } ∧ t.fb = s.fb ∧ t.panel = s.panel

/-- R170 (with R167): SETINVCTL, for every `INV_ENCODE`, which is InvalidArgument (`none`) for a mode above 4. -/
def Obligations.InversionControlOperation : Prop :=
  ∀ (mode colorfix : Word) (s : State),
    decodeRequest (0x16 :: (Word.bytes mode ++ Word.bytes colorfix)) = some (.setinvctl mode colorfix) ∧
    (mode.toNat ≤ 4 →
      ∃ t, exec (.setinvctl mode colorfix) s = .next t ∧
        Answers s t
          ((if s.cs.unlocked then [] else unlockEvents) ++
            match Config.invPacking mode.toNat colorfix.toNat with
            | some params => writeFrame 0xB4 params
            | none => [])
          (match Config.invPacking mode.toNat colorfix.toNat with
            | some _ => ⟨.ok, []⟩
            | none => ⟨.invalidArgument, []⟩) ∧
        t.cs = { s.cs with unlocked := true } ∧ t.fb = s.fb ∧ t.panel = s.panel) ∧
    (mode.toNat > 4 →
      ∃ t, exec (.setinvctl mode colorfix) s = .next t ∧
        Answers s t (if s.cs.unlocked then [] else unlockEvents) ⟨.invalidArgument, []⟩ ∧
        t.cs = { s.cs with unlocked := true } ∧ t.fb = s.fb ∧ t.panel = s.panel)

/-- R171: each snapshot field is read from the status word at its layout position; and the default positions, byte by
byte. That the k-th bit of the pixel-format code stands at the k-th position of the layout's list, the lowest bit first,
is the model's reading for a layout other than the default (log 17). -/
def Obligations.StatusSnapshot : Prop :=
  ∀ b0 b1 b2 b3 : Byte,
    (∀ (l : StatusLayout) (snapshot : Snapshot), snapshot = statusDecode l (statusWord [b0, b1, b2, b3]) →
      snapshot.orientation =
        { my := (b0 ++ b1 ++ b2 ++ b3).getLsbD l.my, mx := (b0 ++ b1 ++ b2 ++ b3).getLsbD l.mx
          mv := (b0 ++ b1 ++ b2 ++ b3).getLsbD l.mv, ml := (b0 ++ b1 ++ b2 ++ b3).getLsbD l.ml
          bgr := (b0 ++ b1 ++ b2 ++ b3).getLsbD l.bgr, mh := (b0 ++ b1 ++ b2 ++ b3).getLsbD l.mh } ∧
      (∀ k, snapshot.pixfmtCode.testBit k = l.pixfmt[k]?.any fun i => (b0 ++ b1 ++ b2 ++ b3).getLsbD i) ∧
      snapshot.idleBit = (b0 ++ b1 ++ b2 ++ b3).getLsbD l.idle ∧
      snapshot.sleepBit = (b0 ++ b1 ++ b2 ++ b3).getLsbD l.sleep ∧
      snapshot.inversionBit = (b0 ++ b1 ++ b2 ++ b3).getLsbD l.inversion ∧
      snapshot.displayBit = (b0 ++ b1 ++ b2 ++ b3).getLsbD l.display ∧
      snapshot.teModeBit = (b0 ++ b1 ++ b2 ++ b3).getLsbD l.teMode) ∧
    statusDecode StatusLayout.default (statusWord [b0, b1, b2, b3]) =
      { orientation :=
          { my := b0.getLsbD 6, mx := b0.getLsbD 5, mv := b0.getLsbD 4, ml := b0.getLsbD 3, bgr := b0.getLsbD 2,
            mh := b0.getLsbD 1 }
        pixfmtCode := (b1.extractLsb' 4 3).toNat
        idleBit := b1.getLsbD 3
        sleepBit := b1.getLsbD 1
        inversionBit := b2.getLsbD 5
        displayBit := b2.getLsbD 2
        teModeBit := b3.getLsbD 5 }

/-- R172 (with R171): RDSTATUS; the six orientation fields take what the panel reports. -/
def Obligations.ReadStatusOperation : Prop :=
  decodeRequest [0x17] = some .rdstatus ∧
  ∀ s : State, ∃ t d b0 b1 b2 b3, exec .rdstatus s = .next t ∧ OracleAnswers s [d, b0, b1, b2, b3] ∧
    Answers s t (readFrame 0x09 [d, b0, b1, b2, b3]) ⟨.ok, [b0, b1, b2, b3]⟩ ∧
    t.cs =
      { s.cs with
        my := some ((b0 ++ b1 ++ b2 ++ b3).getLsbD s.cfg.statusLayout.my)
        mx := some ((b0 ++ b1 ++ b2 ++ b3).getLsbD s.cfg.statusLayout.mx)
        mv := some ((b0 ++ b1 ++ b2 ++ b3).getLsbD s.cfg.statusLayout.mv)
        ml := some ((b0 ++ b1 ++ b2 ++ b3).getLsbD s.cfg.statusLayout.ml)
        bgr := some ((b0 ++ b1 ++ b2 ++ b3).getLsbD s.cfg.statusLayout.bgr)
        mh := some ((b0 ++ b1 ++ b2 ++ b3).getLsbD s.cfg.statusLayout.mh) } ∧
    t.pins.dir = .output ∧ t.fb = s.fb ∧ t.panel = s.panel.drop 5

/-- R173: WRPIXELS. -/
def Obligations.WritePixelsOperation : Prop :=
  ∀ (bytes : List Byte) (s : State),
    (bytes.length < 2 ^ 32 →
      decodeRequest (0x18 :: (Word.bytes (BitVec.ofNat 32 bytes.length) ++ bytes)) = some (.wrpixels bytes)) ∧
    (s.cs.pixfmt = none → exec (.wrpixels bytes) s = .fault .unsetState) ∧
    (s.cs.pixfmt = some .format16 → bytes.length % 2 ≠ 0 →
      exec (.wrpixels bytes) s = .next (answered ⟨.invalidArgument, []⟩ s)) ∧
    (s.cs.pixfmt = some .format16 → bytes.length % 2 = 0 →
      ∃ t, exec (.wrpixels bytes) s = .next t ∧ Answers s t (writeFrame 0x2C bytes) ⟨.ok, []⟩ ∧
        t.cs = s.cs ∧ t.fb = s.fb ∧ t.panel = s.panel)

/-- R174: SLEEP. -/
def Obligations.SleepOperation : Prop :=
  ∀ (on : Bool) (s : State),
    decodeRequest [0x19, if on then 0x01 else 0x00] = some (.sleep on) ∧
    ∃ t, exec (.sleep on) s = .next t ∧
      Answers s t (if on then writeFrame 0x10 [] else writeFrame 0x11 [] ++ [.delay 120]) ⟨.ok, []⟩ ∧
      t.cs = { s.cs with sleeping := some on } ∧ t.fb = s.fb ∧ t.panel = s.panel

/-- R175: DISPLAY. -/
def Obligations.DisplayOperation : Prop :=
  ∀ (on : Bool) (s : State),
    decodeRequest [0x1A, if on then 0x01 else 0x00] = some (.display on) ∧
    ∃ t, exec (.display on) s = .next t ∧
      Answers s t (writeFrame (if on then 0x29 else s.cfg.displayOffOpcode) []) ⟨.ok, []⟩ ∧
      t.cs = { s.cs with displayOn := some on } ∧ t.fb = s.fb ∧ t.panel = s.panel

/-- R176: IDLE. -/
def Obligations.IdleOperation : Prop :=
  ∀ (on : Bool) (s : State),
    decodeRequest [0x1B, if on then 0x01 else 0x00] = some (.idle on) ∧
    ∃ t, exec (.idle on) s = .next t ∧
      Answers s t (writeFrame (if on then 0x39 else 0x38) []) ⟨.ok, []⟩ ∧
      t.cs = { s.cs with idle := some on } ∧ t.fb = s.fb ∧ t.panel = s.panel

/-! ## Colour converter -/

/-- R211: ENCODE writes no state and emits nothing; it faults while no format is bound. -/
def Obligations.EncodeOperation : Prop :=
  ∀ (r g b : Byte) (s : State),
    decodeRequest [0x20, r, g, b] = some (.encode r g b) ∧
    (s.cs.pixfmt = none → exec (.encode r g b) s = .fault .unsetState) ∧
    (s.cs.pixfmt = some .format16 → exec (.encode r g b) s =
      .next (answered ⟨.ok, [(encode565 r g b >>> 8).setWidth 8, (encode565 r g b).setWidth 8]⟩ s))

/-- R210: the bit fields of the converted colour. -/
def Obligations.ColourBitFields : Prop :=
  ∀ (r g b : Byte),
    (encode565 r g b).extractLsb' 11 5 = (0xFF - r).extractLsb' 3 5 ∧
    (encode565 r g b).extractLsb' 5 6 = (0xFF - g).extractLsb' 2 6 ∧
    (encode565 r g b).extractLsb' 0 5 = (0xFF - b).extractLsb' 3 5

/-- R212: the result is the complement of plain RGB565 packing. -/
def Obligations.InvertedRgb565 : Prop :=
  ∀ (r g b : Byte), encode565 r g b =
    0xFFFF ^^^ (((r &&& 0xF8).setWidth 16 <<< 8) ||| ((g &&& 0xFC).setWidth 16 <<< 3) |||
      ((b &&& 0xF8).setWidth 16 >>> 3))

/-- R213: bits 15 and 11 of the converted colour. -/
def Obligations.ColourRedBits : Prop :=
  ∀ (r g b : Byte), (encode565 r g b).getLsbD 15 = (0xFF - r).getLsbD 7 ∧
    (encode565 r g b).getLsbD 11 = (0xFF - r).getLsbD 3

/-! ## Framebuffer engine -/

/-- R221 (with R220): BLIT: the fault, the refusal, and every cell of the buffer afterwards. -/
def Obligations.BlitOperation : Prop :=
  ∀ (sw sh x y : Half) (src : List Pixel) (s : State),
    (src.length = sw.toNat * sh.toNat →
      decodeRequest (0x30 :: (Half.bytes sw ++ Half.bytes sh ++ Half.bytes x ++ Half.bytes y ++
        src.flatMap Half.bytes)) = some (.blit sw sh x y src)) ∧
    (s.cs.mv = none → exec (.blit sw sh x y src) s = .fault .unsetState) ∧
    (s.cs.mv ≠ none → src.length ≠ sw.toNat * sh.toNat → exec (.blit sw sh x y src) s = .refused .badRequest) ∧
    (∀ mv : Bool, s.cs.mv = some mv → src.length = sw.toNat * sh.toNat →
      ∃ (t : State) (w h : Nat), exec (.blit sw sh x y src) s = .next t ∧
        t = { answered ⟨.ok, []⟩ s with fb := t.fb } ∧
        w = (if mv then s.cfg.panelH else s.cfg.panelW) ∧ h = (if mv then s.cfg.panelW else s.cfg.panelH) ∧
        (∀ dx dy : Nat, dx < w → dy < h →
          t.fb.read (dy * w + dx) =
            if x.toInt ≤ dx ∧ (dx : Int) < x.toInt + sw.toNat ∧ y.toInt ≤ dy ∧ (dy : Int) < y.toInt + sh.toNat then
              src[((dy : Int) - y.toInt).toNat * sw.toNat + ((dx : Int) - x.toInt).toNat]?
            else s.fb.read (dy * w + dx)) ∧
        (∀ i, s.cfg.panelW * s.cfg.panelH ≤ i → t.fb.read i = s.fb.read i))

/-- R222: FILL sets all N cells and reads no Controller State. -/
def Obligations.FillOperation : Prop :=
  ∀ (color : Pixel) (s : State),
    decodeRequest (0x31 :: Half.bytes color) = some (.fill color) ∧
    ∃ t, exec (.fill color) s = .next t ∧ t = { answered ⟨.ok, []⟩ s with fb := t.fb } ∧
      (∀ i, i < s.cfg.panelW * s.cfg.panelH → t.fb.read i = some color) ∧
      ((∀ cell ∈ s.fb, cell.1 < s.cfg.panelW * s.cfg.panelH) →
        ∀ i, s.cfg.panelW * s.cfg.panelH ≤ i → t.fb.read i = s.fb.read i)

/-- R223 (with R224): FLUSH: the two faults in their order, and the one frame of every cell's bytes in index order. -/
def Obligations.FlushOperation : Prop :=
  decodeRequest [0x32] = some .flush ∧
  ∀ s : State,
    (s.cs.pixfmt = none → exec .flush s = .fault .unsetState) ∧
    (s.cs.pixfmt ≠ none → (∃ i, i < s.cfg.panelW * s.cfg.panelH ∧ s.fb.read i = none) →
      exec .flush s = .fault .unwrittenPixel) ∧
    (∀ px : List Pixel, s.cs.pixfmt ≠ none → px.length = s.cfg.panelW * s.cfg.panelH →
      (∀ i, i < px.length → s.fb.read i = px[i]?) →
      ∃ t, exec .flush s = .next t ∧
        Answers s t
          (writeFrame 0x2C (px.flatMap fun v : Pixel =>
            match s.cfg.pixelByteOrder with
            | .be => [(v >>> 8).setWidth 8, v.setWidth 8]
            | .le => [v.setWidth 8, (v >>> 8).setWidth 8])) ⟨.ok, []⟩ ∧
        t.cs = s.cs ∧ t.fb = s.fb ∧ t.panel = s.panel)

/-! ## Bus commands -/

/-- R100, R102, R121 to R123: the read commands whose count the issuer chooses. That a command runs alone and gives no
response is the model's choice (log 5, log 7). -/
def Obligations.ReadCommandsFrame : Prop :=
  ∀ (i : Instr) (op : Byte) (count : Word) (s : State),
    (i, op) ∈ [(Instr.cmd00 count, (0x00 : Byte)), (.cmd04 count, 0x04), (.cmdDA count, 0xDA), (.cmdDB count, 0xDB),
      (.cmdDC count, 0xDC)] →
    ∃ t d bytes, exec i s = .next t ∧ bytes.length = count.toNat ∧ OracleAnswers s (d :: bytes) ∧
      Issues s t (readFrame op (d :: bytes)) ∧ t.cs = s.cs ∧ t.fb = s.fb ∧
      t.panel = s.panel.drop (count.toNat + 1)

/-- R106, R107, R112, R113, R118 to R120, R124 to R127: the write commands that track no state (alone: the model's
choice, log 5, log 7). -/
def Obligations.UntrackedCommandsFrame : Prop :=
  ∀ (i : Instr) (op : Byte) (params : List Byte) (value : Byte) (s : State),
    (i, op, params) ∈ [(Instr.cmd12 params, (0x12 : Byte), params), (.cmd13, 0x13, []), (.cmd2C params, 0x2C, params),
      (.cmd30 params, 0x30, params), (.cmdA3 value, 0xA3, [value]), (.cmdB4 params, 0xB4, params),
      (.cmdB6, 0xB6, [0x07]), (.cmdEF, 0xEF, []), (.cmdF0 params, 0xF0, params), (.cmdF1 params, 0xF1, params),
      (.cmdFE, 0xFE, [])] →
    ∃ t, exec i s = .next t ∧ Issues s t (writeFrame op params) ∧ t.cs = s.cs ∧ t.fb = s.fb ∧ t.panel = s.panel

/-- R104, R105, R108, R109, R115, R116: the commands that track a power flag (alone: the model's choice, log 5,
log 7). -/
def Obligations.PowerCommandsTrackFlags : Prop :=
  ∀ (i : Instr) (events : List Event) (cs : Controller) (s : State),
    (i, events, cs) ∈
      [(Instr.cmd10, writeFrame 0x10 [], { s.cs with sleeping := some true }),
       (.cmd11, writeFrame 0x11 [] ++ [.delay 120], { s.cs with sleeping := some false }),
       (.cmd28, writeFrame 0x28 [], { s.cs with displayOn := some false }),
       (.cmd29, writeFrame 0x29 [], { s.cs with displayOn := some true }),
       (.cmd38, writeFrame 0x38 [], { s.cs with idle := some false }),
       (.cmd39, writeFrame 0x39 [], { s.cs with idle := some true })] →
    ∃ t, exec i s = .next t ∧ Issues s t events ∧ t.cs = cs ∧ t.fb = s.fb ∧ t.panel = s.panel

/-- R110, R111, R114, R117: the commands that track the window, the orientation and the pixel format (alone, and with any
bounds: the model's choice, log 5, log 7, log 15). -/
def Obligations.SetupCommandsTrackFields : Prop :=
  ∀ (a b : Half) (o : Orientation) (s : State),
    (∃ t, exec (.cmd2A a b) s = .next t ∧
      Issues s t (writeFrame 0x2A [(a >>> 8).setWidth 8, a.setWidth 8, (b >>> 8).setWidth 8, b.setWidth 8]) ∧
      t.cs = { s.cs with colStart := some a, colEnd := some b } ∧ t.fb = s.fb ∧ t.panel = s.panel) ∧
    (∃ t, exec (.cmd2B a b) s = .next t ∧
      Issues s t (writeFrame 0x2B [(a >>> 8).setWidth 8, a.setWidth 8, (b >>> 8).setWidth 8, b.setWidth 8]) ∧
      t.cs = { s.cs with rowStart := some a, rowEnd := some b } ∧ t.fb = s.fb ∧ t.panel = s.panel) ∧
    (∃ t, exec (.cmd36 o) s = .next t ∧ Issues s t (writeFrame 0x36 [o.byte]) ∧
      t.cs = { s.cs with my := some o.my, mx := some o.mx, mv := some o.mv, ml := some o.ml, bgr := some o.bgr,
                         mh := some o.mh } ∧ t.fb = s.fb ∧ t.panel = s.panel) ∧
    (∃ t, exec .cmd3A s = .next t ∧ Issues s t (writeFrame 0x3A [s.cfg.pf16Code]) ∧
      t.cs = { s.cs with pixfmt := some .format16 } ∧ t.fb = s.fb ∧ t.panel = s.panel)

/-- R101: software reset makes the Controller State UNSET; R103: a status read writes the orientation fields. That each
runs alone, and that the first sets the phase, is the model's choice (log 5, log 7). -/
def Obligations.ResetAndStatusCommands : Prop :=
  ∀ s : State,
    (∃ t, exec .cmd01 s = .next t ∧ Issues s t (writeFrame 0x01 [] ++ [.delay 5]) ∧
      t.cs =
        { phase := .reset, pixfmt := none, my := none, mx := none, mv := none, ml := none, bgr := none, mh := none,
          colStart := none, colEnd := none, rowStart := none, rowEnd := none,
          sleeping := none, idle := none, displayOn := none, inverted := s.cs.inverted,
          unlocked := s.cs.unlocked && !s.cfg.unlockClearedByReset } ∧ t.fb = s.fb ∧ t.panel = s.panel) ∧
    (∃ t d b0 b1 b2 b3, exec .cmd09 s = .next t ∧ OracleAnswers s [d, b0, b1, b2, b3] ∧
      Issues s t (readFrame 0x09 [d, b0, b1, b2, b3]) ∧
      t.cs =
        { s.cs with
          my := some ((b0 ++ b1 ++ b2 ++ b3).getLsbD s.cfg.statusLayout.my)
          mx := some ((b0 ++ b1 ++ b2 ++ b3).getLsbD s.cfg.statusLayout.mx)
          mv := some ((b0 ++ b1 ++ b2 ++ b3).getLsbD s.cfg.statusLayout.mv)
          ml := some ((b0 ++ b1 ++ b2 ++ b3).getLsbD s.cfg.statusLayout.ml)
          bgr := some ((b0 ++ b1 ++ b2 ++ b3).getLsbD s.cfg.statusLayout.bgr)
          mh := some ((b0 ++ b1 ++ b2 ++ b3).getLsbD s.cfg.statusLayout.mh) } ∧
      t.fb = s.fb ∧ t.panel = s.panel.drop 5)

/-! ## Rules about every operation -/

/-- R83: a host operation that ends answers once, with status OK, InvalidArgument or UnsupportedFormat; data follows
only on OK, and only RDREG, RDSTATUS and ENCODE return any. -/
def Obligations.EveryRequestAnsweredOnce : Prop :=
  ∀ (i : Instr) (s t : State), isHostOp i = true → exec i s = .next t →
    ∃ r : Response, t.responses = s.responses ++ [r] ∧ t.pc = s.pc + 1 ∧
      (r.status = .ok ∨ r.status = .invalidArgument ∨ r.status = .unsupportedFormat) ∧
      (r.data ≠ [] → r.status = .ok ∧
        ((∃ op count, i = .rdreg op count ∧ r.data.length = count.toNat) ∨ (i = .rdstatus ∧ r.data.length = 4) ∨
          ∃ x y z, i = .encode x y z ∧ r.data.length = 2)) ∧
      r.bytes.head? =
        some (match r.status with | .ok => 0 | .invalidArgument => 1 | .unsupportedFormat => 2
                                  | .malformedImage => 3 | .protocolTimingViolation => 4)

/-- R242: an error has no side effect but the response; a privileged operation's may have sent the unlock sequence. -/
def Obligations.ErrorsHaveNoSideEffects : Prop :=
  ∀ (i : Instr) (s t : State) (r : Response), exec i s = .next t → t.responses = s.responses ++ [r] →
    r.status ≠ .ok →
    (isPrivileged i = false → t = answered r s) ∧
    (isPrivileged i = true → Answers s t (if s.cs.unlocked then [] else unlockEvents) r ∧
      t.cs = { s.cs with unlocked := true } ∧ t.fb = s.fb ∧ t.panel = s.panel)

/-- R241: which host operations raise InvalidArgument, and when. -/
def Obligations.InvalidArgumentExactly : Prop :=
  ∀ (i : Instr) (s t : State), exec i s = .next t →
    (t.responses = s.responses ++ [⟨.invalidArgument, []⟩] ↔
      (∃ axis start stop stop', i = .setwin axis start stop ∧ resolveEnd axis stop s = some stop' ∧
        (start.toInt < 0 ∨ start.toInt > 0xFFFF ∨ stop' > 0xFFFF ∨ start.toInt ≥ stop')) ∨
      (∃ preset keep, i = .setorient preset keep ∧ preset.toNat > 7) ∨
      (∃ value, i = .setframerate value ∧ (value.toNat > 0xFF ∨ value.setWidth 8 &&& ~~~s.cfg.frMask ≠ 0)) ∨
      (∃ coeffs, i = .setgamma coeffs ∧ Config.gammaEncode (coeffs.map BitVec.toInt) = none) ∨
      (∃ mode fix, i = .setinvctl mode fix ∧
        (mode.toNat > 4 ∨ Config.invPacking mode.toNat fix.toNat = none)) ∨
      (∃ bytes, i = .wrpixels bytes ∧ bytes.length % 2 ≠ 0))

/-- R244: the faults, exactly where the rule's table has them. -/
def Obligations.FaultsExactly : Prop :=
  ∀ (i : Instr) (s : State) (f : Fault), exec i s = .fault f ↔
    (f = .unsetState ∧
      ((s.cs.pixfmt = none ∧ ((∃ bytes, i = .wrpixels bytes) ∨ i = .flush ∨ ∃ r g b, i = .encode r g b)) ∨
       (s.cs.mv = none ∧ ((∃ axis start stop, i = .setwin axis start stop ∧ stop.toInt < 0) ∨
         ∃ sw sh x y src, i = .blit sw sh x y src)))) ∨
    (f = .unwrittenPixel ∧ i = .flush ∧ s.cs.pixfmt ≠ none ∧
      ∃ j, j < s.cfg.panelW * s.cfg.panelH ∧ s.fb.read j = none)

/-- R245: what a meaning refuses: a raw tracked opcode, and a BLIT list whose length is not sw x sh. -/
def Obligations.RefusalsExactly : Prop :=
  ∀ (i : Instr) (s : State) (r : Refusal), exec i s = .refused r ↔
    (r = .rawStateful ∧ ∃ op, op ∈ trackedOpcodes ∧
      ((∃ params, i = .wrcmd op params) ∨ ∃ count, i = .rdreg op count)) ∨
    (r = .badRequest ∧ ∃ sw sh x y src, i = .blit sw sh x y src ∧ s.cs.mv ≠ none ∧
      src.length ≠ sw.toNat * sh.toNat)

/-- R33: only BLIT and FILL write the framebuffer. -/
def Obligations.FramebufferWriters : Prop :=
  ∀ (i : Instr) (s t : State), exec i s = .next t →
    (∀ sw sh x y src, i ≠ .blit sw sh x y src) → (∀ color, i ≠ .fill color) → t.fb = s.fb

/-- R30: with the default parameter nothing clears `unlocked`; and only a privileged operation or INIT sets it. -/
def Obligations.UnlockedWriters : Prop :=
  ∀ (i : Instr) (s t : State), exec i s = .next t →
    (s.cfg.unlockClearedByReset = false → s.cs.unlocked = true → t.cs.unlocked = true) ∧
    (s.cs.unlocked = false → t.cs.unlocked = true → isPrivileged i = true ∨ i = .init)

/-- R25: which host operations write the phase. -/
def Obligations.PhaseWriters : Prop :=
  ∀ (i : Instr) (s t : State), isHostOp i = true → exec i s = .next t →
    (i = .init → t.cs.phase = .configured) ∧
    (∀ hw sw, i = .reset hw sw → t.cs.phase = if hw ∨ sw then .reset else s.cs.phase) ∧
    (i ≠ .init → (∀ hw sw, i ≠ .reset hw sw) → t.cs.phase = s.cs.phase)

/-- R29: which host operations write the power flags; none writes `inverted`. -/
def Obligations.PowerFlagWriters : Prop :=
  ∀ (i : Instr) (s t : State), isHostOp i = true → exec i s = .next t →
    t.cs.inverted = s.cs.inverted ∧
    (i ≠ .init → (∀ hw sw, i ≠ .reset hw sw) →
      ((∀ on, i ≠ .sleep on) → t.cs.sleeping = s.cs.sleeping) ∧
      ((∀ on, i ≠ .idle on) → t.cs.idle = s.cs.idle) ∧
      ((∀ on, i ≠ .display on) → t.cs.displayOn = s.cs.displayOn))

/-- R63, R73: the trace is only appended to. R8, R38: no step changes the parameters. R37, R244, R245: a step that
answers a next state sets no mark. That parameters and marks stand in State is the model's choice (log 1, log 14). -/
def Obligations.TraceOnlyGrows : Prop :=
  ∀ s t : State, step s = .next t →
    s.trace <+: t.trace ∧ t.cfg = s.cfg ∧ t.faultMark = s.faultMark ∧ t.refusedMark = s.refusedMark

/-! ## Invariants that every step keeps -/

/-- R24, R31, R33, R35, R20, R29: what holds between host operations. An empty in-flight slot is the model's choice
(log 5). -/
def Obligations.StepKeepsInv : Prop := ∀ s t : State, s.Inv → step s = .next t → t.Inv

/-- R64, R63: every event stands at legal levels, and the trace accounts for every level but D[7:0]. -/
def Obligations.StepKeepsTraceLegal : Prop := ∀ s t : State, s.TraceInv → step s = .next t → t.TraceInv

/-- R32: the Controller State mirrors what the trace says was last sent. -/
def Obligations.StepKeepsMirror : Prop :=
  ∀ s t : State, s.cfg.wf = true → s.MirrorInv → step s = .next t → t.MirrorInv

/-- R32: the orientation fields are the bits of the memory-access-control parameter last sent, kept by every step but a
status read; and an instruction that sends that command or resets the panel restores the mirror from any state. The
command that reads the status alone is the model's route for R103 (log 5). -/
def Obligations.StepKeepsOrientationMirror : Prop :=
  (∀ s t : State, s.cfg.wf = true → s.OrientMirror → step s = .next t →
    (∀ m, s.pending = some m → decode m ≠ some .rdstatus ∧ decode m ≠ some .cmd09) → t.OrientMirror) ∧
  (∀ (i : Instr) (s t : State), exec i s = .next t →
    (i = .init ∨ (∃ preset keep, i = .setorient preset keep ∧ preset.toNat ≤ 7) ∨ (∃ o, i = .cmd36 o) ∨
      (∃ hw sw, i = .reset hw sw ∧ (hw = true ∨ sw = true)) ∨ i = .cmd01) → t.OrientMirror)

/-- R276, R167: a set `unlocked` means that the unlock sequence stands in the trace. A privileged operation's own frames,
and INIT's A3 under INIT_UNLOCKS, come after a front of the trace that holds the sequence. -/
def Obligations.PrivilegedFollowsUnlock : Prop :=
  (∀ s t : State, s.UnlockInv → step s = .next t → t.UnlockInv) ∧
  (∀ (i : Instr) (s t : State), isPrivileged i = true → s.UnlockInv → exec i s = .next t →
    ∃ front own, t.trace = front ++ own ∧ front = s.trace ++ (if s.cs.unlocked then [] else unlockEvents) ∧
      unlockEvents <:+: front ∧
      ((own = [] ∧ t.responses = s.responses ++ [⟨.invalidArgument, []⟩]) ∨
        t.responses = s.responses ++ [⟨.ok, []⟩] ∧
          ((∃ value, i = .setframerate value ∧ own = writeFrame 0xA3 [value.setWidth 8]) ∨
            (∃ coeffs p0 p1, i = .setgamma coeffs ∧ own = writeFrame 0xF0 p0 ++ writeFrame 0xF1 p1) ∨
            ∃ mode fix params, i = .setinvctl mode fix ∧ own = writeFrame 0xB4 params))) ∧
  (∀ s t : State, s.UnlockInv → s.cfg.initUnlocks = true → exec .init s = .next t →
    ∃ front, s.trace <+: front ∧ unlockEvents <:+: front ∧
      t.trace = front ++ writeFrame 0xA3 [0x00] ++ writeFrame 0x38 [] ++ writeFrame 0x11 [] ++ [.delay 120] ++
        writeFrame 0x29 [])
end

