-- ==== Sys2Proof/Laws/State.lean ====
section
/-! SUPPORT. One lemma per field per update of the state. -/

namespace Sys2Proof.Machine

@[simp] theorem setCs_cfg (c : Controller) (s : State) : (s.setCs c).cfg = s.cfg := rfl
@[simp] theorem setCs_pins (c : Controller) (s : State) : (s.setCs c).pins = s.pins := rfl
@[simp] theorem setCs_cs (c : Controller) (s : State) : (s.setCs c).cs = c := rfl
@[simp] theorem setCs_fb (c : Controller) (s : State) : (s.setCs c).fb = s.fb := rfl
@[simp] theorem setCs_trace (c : Controller) (s : State) : (s.setCs c).trace = s.trace := rfl
@[simp] theorem setCs_responses (c : Controller) (s : State) : (s.setCs c).responses = s.responses := rfl
@[simp] theorem setCs_pc (c : Controller) (s : State) : (s.setCs c).pc = s.pc := rfl
@[simp] theorem setCs_requests (c : Controller) (s : State) : (s.setCs c).requests = s.requests := rfl
@[simp] theorem setCs_inflight (c : Controller) (s : State) : (s.setCs c).inflight = s.inflight := rfl
@[simp] theorem setCs_panel (c : Controller) (s : State) : (s.setCs c).panel = s.panel := rfl
@[simp] theorem setCs_free (c : Controller) (s : State) : (s.setCs c).free = s.free := rfl
@[simp] theorem setCs_faultMark (c : Controller) (s : State) : (s.setCs c).faultMark = s.faultMark := rfl
@[simp] theorem setCs_refusedMark (c : Controller) (s : State) : (s.setCs c).refusedMark = s.refusedMark := rfl

@[simp] theorem setFb_cfg (m : Memory) (s : State) : (s.setFb m).cfg = s.cfg := rfl
@[simp] theorem setFb_pins (m : Memory) (s : State) : (s.setFb m).pins = s.pins := rfl
@[simp] theorem setFb_cs (m : Memory) (s : State) : (s.setFb m).cs = s.cs := rfl
@[simp] theorem setFb_fb (m : Memory) (s : State) : (s.setFb m).fb = m := rfl
@[simp] theorem setFb_trace (m : Memory) (s : State) : (s.setFb m).trace = s.trace := rfl
@[simp] theorem setFb_responses (m : Memory) (s : State) : (s.setFb m).responses = s.responses := rfl
@[simp] theorem setFb_pc (m : Memory) (s : State) : (s.setFb m).pc = s.pc := rfl
@[simp] theorem setFb_requests (m : Memory) (s : State) : (s.setFb m).requests = s.requests := rfl
@[simp] theorem setFb_inflight (m : Memory) (s : State) : (s.setFb m).inflight = s.inflight := rfl
@[simp] theorem setFb_panel (m : Memory) (s : State) : (s.setFb m).panel = s.panel := rfl
@[simp] theorem setFb_free (m : Memory) (s : State) : (s.setFb m).free = s.free := rfl
@[simp] theorem setFb_faultMark (m : Memory) (s : State) : (s.setFb m).faultMark = s.faultMark := rfl
@[simp] theorem setFb_refusedMark (m : Memory) (s : State) : (s.setFb m).refusedMark = s.refusedMark := rfl

@[simp] theorem modifyCs_cfg (f : Controller → Controller) (s : State) : (s.modifyCs f).cfg = s.cfg := rfl
@[simp] theorem modifyCs_pins (f : Controller → Controller) (s : State) : (s.modifyCs f).pins = s.pins := rfl
@[simp] theorem modifyCs_cs (f : Controller → Controller) (s : State) : (s.modifyCs f).cs = f s.cs := rfl
@[simp] theorem modifyCs_fb (f : Controller → Controller) (s : State) : (s.modifyCs f).fb = s.fb := rfl
@[simp] theorem modifyCs_trace (f : Controller → Controller) (s : State) : (s.modifyCs f).trace = s.trace := rfl
@[simp] theorem modifyCs_responses (f : Controller → Controller) (s : State) : (s.modifyCs f).responses = s.responses := rfl
@[simp] theorem modifyCs_pc (f : Controller → Controller) (s : State) : (s.modifyCs f).pc = s.pc := rfl
@[simp] theorem modifyCs_requests (f : Controller → Controller) (s : State) : (s.modifyCs f).requests = s.requests := rfl
@[simp] theorem modifyCs_inflight (f : Controller → Controller) (s : State) : (s.modifyCs f).inflight = s.inflight := rfl
@[simp] theorem modifyCs_panel (f : Controller → Controller) (s : State) : (s.modifyCs f).panel = s.panel := rfl
@[simp] theorem modifyCs_free (f : Controller → Controller) (s : State) : (s.modifyCs f).free = s.free := rfl
@[simp] theorem modifyCs_faultMark (f : Controller → Controller) (s : State) : (s.modifyCs f).faultMark = s.faultMark := rfl
@[simp] theorem modifyCs_refusedMark (f : Controller → Controller) (s : State) : (s.modifyCs f).refusedMark = s.refusedMark := rfl

@[simp] theorem emit_cfg (e : Event) (s : State) : (emit s e).cfg = s.cfg := rfl
@[simp] theorem emit_pins (e : Event) (s : State) : (emit s e).pins = s.pins.after e (Config.idleData s.free) := rfl
@[simp] theorem emit_cs (e : Event) (s : State) : (emit s e).cs = s.cs := rfl
@[simp] theorem emit_fb (e : Event) (s : State) : (emit s e).fb = s.fb := rfl
@[simp] theorem emit_trace (e : Event) (s : State) : (emit s e).trace = s.trace ++ [e] := rfl
@[simp] theorem emit_responses (e : Event) (s : State) : (emit s e).responses = s.responses := rfl
@[simp] theorem emit_pc (e : Event) (s : State) : (emit s e).pc = s.pc := rfl
@[simp] theorem emit_requests (e : Event) (s : State) : (emit s e).requests = s.requests := rfl
@[simp] theorem emit_inflight (e : Event) (s : State) : (emit s e).inflight = s.inflight := rfl
@[simp] theorem emit_panel (e : Event) (s : State) : (emit s e).panel = s.panel := rfl
@[simp] theorem emit_free (e : Event) (s : State) : (emit s e).free = s.free + e.frees := rfl
@[simp] theorem emit_faultMark (e : Event) (s : State) : (emit s e).faultMark = s.faultMark := rfl
@[simp] theorem emit_refusedMark (e : Event) (s : State) : (emit s e).refusedMark = s.refusedMark := rfl

@[simp] theorem respond_cfg (r : Response) (s : State) : (respond r s).cfg = s.cfg := rfl
@[simp] theorem respond_pins (r : Response) (s : State) : (respond r s).pins = s.pins := rfl
@[simp] theorem respond_cs (r : Response) (s : State) : (respond r s).cs = s.cs := rfl
@[simp] theorem respond_fb (r : Response) (s : State) : (respond r s).fb = s.fb := rfl
@[simp] theorem respond_trace (r : Response) (s : State) : (respond r s).trace = s.trace := rfl
@[simp] theorem respond_responses (r : Response) (s : State) : (respond r s).responses = s.responses ++ [r] := rfl
@[simp] theorem respond_pc (r : Response) (s : State) : (respond r s).pc = s.pc + 1 := rfl
@[simp] theorem respond_requests (r : Response) (s : State) : (respond r s).requests = s.requests := rfl
@[simp] theorem respond_inflight (r : Response) (s : State) : (respond r s).inflight = s.inflight := rfl
@[simp] theorem respond_panel (r : Response) (s : State) : (respond r s).panel = s.panel := rfl
@[simp] theorem respond_free (r : Response) (s : State) : (respond r s).free = s.free := rfl
@[simp] theorem respond_faultMark (r : Response) (s : State) : (respond r s).faultMark = s.faultMark := rfl
@[simp] theorem respond_refusedMark (r : Response) (s : State) : (respond r s).refusedMark = s.refusedMark := rfl

@[simp] theorem answered_cfg (r : Response) (s : State) : (answered r s).cfg = s.cfg := rfl
@[simp] theorem answered_pins (r : Response) (s : State) : (answered r s).pins = s.pins := rfl
@[simp] theorem answered_cs (r : Response) (s : State) : (answered r s).cs = s.cs := rfl
@[simp] theorem answered_fb (r : Response) (s : State) : (answered r s).fb = s.fb := rfl
@[simp] theorem answered_trace (r : Response) (s : State) : (answered r s).trace = s.trace := rfl
@[simp] theorem answered_responses (r : Response) (s : State) : (answered r s).responses = s.responses ++ [r] := rfl
@[simp] theorem answered_pc (r : Response) (s : State) : (answered r s).pc = s.pc + 1 := rfl
@[simp] theorem answered_requests (r : Response) (s : State) : (answered r s).requests = s.requests := rfl
@[simp] theorem answered_inflight (r : Response) (s : State) : (answered r s).inflight = s.inflight := rfl
@[simp] theorem answered_panel (r : Response) (s : State) : (answered r s).panel = s.panel := rfl
@[simp] theorem answered_free (r : Response) (s : State) : (answered r s).free = s.free := rfl
@[simp] theorem answered_faultMark (r : Response) (s : State) : (answered r s).faultMark = s.faultMark := rfl
@[simp] theorem answered_refusedMark (r : Response) (s : State) : (answered r s).refusedMark = s.refusedMark := rfl

@[simp] theorem takeRequest_cfg (b : List Byte) (s : State) : (s.take (.request b)).cfg = s.cfg := rfl
@[simp] theorem takeRequest_pins (b : List Byte) (s : State) : (s.take (.request b)).pins = s.pins := rfl
@[simp] theorem takeRequest_cs (b : List Byte) (s : State) : (s.take (.request b)).cs = s.cs := rfl
@[simp] theorem takeRequest_fb (b : List Byte) (s : State) : (s.take (.request b)).fb = s.fb := rfl
@[simp] theorem takeRequest_trace (b : List Byte) (s : State) : (s.take (.request b)).trace = s.trace := rfl
@[simp] theorem takeRequest_responses (b : List Byte) (s : State) : (s.take (.request b)).responses = s.responses := rfl
@[simp] theorem takeRequest_pc (b : List Byte) (s : State) : (s.take (.request b)).pc = s.pc := rfl
@[simp] theorem takeRequest_requests (b : List Byte) (s : State) : (s.take (.request b)).requests = s.requests.tail := rfl
@[simp] theorem takeRequest_inflight (b : List Byte) (s : State) : (s.take (.request b)).inflight = s.inflight := rfl
@[simp] theorem takeRequest_panel (b : List Byte) (s : State) : (s.take (.request b)).panel = s.panel := rfl
@[simp] theorem takeRequest_free (b : List Byte) (s : State) : (s.take (.request b)).free = s.free := rfl
@[simp] theorem takeRequest_faultMark (b : List Byte) (s : State) : (s.take (.request b)).faultMark = s.faultMark := rfl
@[simp] theorem takeRequest_refusedMark (b : List Byte) (s : State) : (s.take (.request b)).refusedMark = s.refusedMark := rfl

@[simp] theorem takeCommand_cfg (b : List Byte) (s : State) : (s.take (.command b)).cfg = s.cfg := rfl
@[simp] theorem takeCommand_pins (b : List Byte) (s : State) : (s.take (.command b)).pins = s.pins := rfl
@[simp] theorem takeCommand_cs (b : List Byte) (s : State) : (s.take (.command b)).cs = s.cs := rfl
@[simp] theorem takeCommand_fb (b : List Byte) (s : State) : (s.take (.command b)).fb = s.fb := rfl
@[simp] theorem takeCommand_trace (b : List Byte) (s : State) : (s.take (.command b)).trace = s.trace := rfl
@[simp] theorem takeCommand_responses (b : List Byte) (s : State) : (s.take (.command b)).responses = s.responses := rfl
@[simp] theorem takeCommand_pc (b : List Byte) (s : State) : (s.take (.command b)).pc = s.pc := rfl
@[simp] theorem takeCommand_requests (b : List Byte) (s : State) : (s.take (.command b)).requests = s.requests := rfl
@[simp] theorem takeCommand_inflight (b : List Byte) (s : State) : (s.take (.command b)).inflight = none := rfl
@[simp] theorem takeCommand_panel (b : List Byte) (s : State) : (s.take (.command b)).panel = s.panel := rfl
@[simp] theorem takeCommand_free (b : List Byte) (s : State) : (s.take (.command b)).free = s.free := rfl
@[simp] theorem takeCommand_faultMark (b : List Byte) (s : State) : (s.take (.command b)).faultMark = s.faultMark := rfl
@[simp] theorem takeCommand_refusedMark (b : List Byte) (s : State) : (s.take (.command b)).refusedMark = s.refusedMark := rfl

@[simp] theorem recordFault_cfg (r : Fault) (s : State) : (s.record (.fault r)).cfg = s.cfg := rfl
@[simp] theorem recordFault_pins (r : Fault) (s : State) : (s.record (.fault r)).pins = s.pins := rfl
@[simp] theorem recordFault_cs (r : Fault) (s : State) : (s.record (.fault r)).cs = s.cs := rfl
@[simp] theorem recordFault_fb (r : Fault) (s : State) : (s.record (.fault r)).fb = s.fb := rfl
@[simp] theorem recordFault_trace (r : Fault) (s : State) : (s.record (.fault r)).trace = s.trace := rfl
@[simp] theorem recordFault_responses (r : Fault) (s : State) : (s.record (.fault r)).responses = s.responses := rfl
@[simp] theorem recordFault_pc (r : Fault) (s : State) : (s.record (.fault r)).pc = s.pc := rfl
@[simp] theorem recordFault_requests (r : Fault) (s : State) : (s.record (.fault r)).requests = s.requests := rfl
@[simp] theorem recordFault_inflight (r : Fault) (s : State) : (s.record (.fault r)).inflight = s.inflight := rfl
@[simp] theorem recordFault_panel (r : Fault) (s : State) : (s.record (.fault r)).panel = s.panel := rfl
@[simp] theorem recordFault_free (r : Fault) (s : State) : (s.record (.fault r)).free = s.free := rfl
@[simp] theorem recordFault_faultMark (r : Fault) (s : State) : (s.record (.fault r)).faultMark = some r := rfl
@[simp] theorem recordFault_refusedMark (r : Fault) (s : State) : (s.record (.fault r)).refusedMark = s.refusedMark := rfl

@[simp] theorem recordRefused_cfg (r : Refusal) (s : State) : (s.record (.refused r)).cfg = s.cfg := rfl
@[simp] theorem recordRefused_pins (r : Refusal) (s : State) : (s.record (.refused r)).pins = s.pins := rfl
@[simp] theorem recordRefused_cs (r : Refusal) (s : State) : (s.record (.refused r)).cs = s.cs := rfl
@[simp] theorem recordRefused_fb (r : Refusal) (s : State) : (s.record (.refused r)).fb = s.fb := rfl
@[simp] theorem recordRefused_trace (r : Refusal) (s : State) : (s.record (.refused r)).trace = s.trace := rfl
@[simp] theorem recordRefused_responses (r : Refusal) (s : State) : (s.record (.refused r)).responses = s.responses := rfl
@[simp] theorem recordRefused_pc (r : Refusal) (s : State) : (s.record (.refused r)).pc = s.pc := rfl
@[simp] theorem recordRefused_requests (r : Refusal) (s : State) : (s.record (.refused r)).requests = s.requests := rfl
@[simp] theorem recordRefused_inflight (r : Refusal) (s : State) : (s.record (.refused r)).inflight = s.inflight := rfl
@[simp] theorem recordRefused_panel (r : Refusal) (s : State) : (s.record (.refused r)).panel = s.panel := rfl
@[simp] theorem recordRefused_free (r : Refusal) (s : State) : (s.record (.refused r)).free = s.free := rfl
@[simp] theorem recordRefused_faultMark (r : Refusal) (s : State) : (s.record (.refused r)).faultMark = s.faultMark := rfl
@[simp] theorem recordRefused_refusedMark (r : Refusal) (s : State) : (s.record (.refused r)).refusedMark = true := rfl

@[simp] theorem record_next (s t : State) : s.record (.next t) = t := rfl

/-! ## Controller State updates -/

@[simp] theorem afterReset_phase (u : Bool) (c : Controller) : (c.afterReset u).phase = .reset := rfl
@[simp] theorem afterReset_pixfmt (u : Bool) (c : Controller) : (c.afterReset u).pixfmt = none := rfl
@[simp] theorem afterReset_my (u : Bool) (c : Controller) : (c.afterReset u).my = none := rfl
@[simp] theorem afterReset_mx (u : Bool) (c : Controller) : (c.afterReset u).mx = none := rfl
@[simp] theorem afterReset_mv (u : Bool) (c : Controller) : (c.afterReset u).mv = none := rfl
@[simp] theorem afterReset_ml (u : Bool) (c : Controller) : (c.afterReset u).ml = none := rfl
@[simp] theorem afterReset_bgr (u : Bool) (c : Controller) : (c.afterReset u).bgr = none := rfl
@[simp] theorem afterReset_mh (u : Bool) (c : Controller) : (c.afterReset u).mh = none := rfl
@[simp] theorem afterReset_colStart (u : Bool) (c : Controller) : (c.afterReset u).colStart = none := rfl
@[simp] theorem afterReset_colEnd (u : Bool) (c : Controller) : (c.afterReset u).colEnd = none := rfl
@[simp] theorem afterReset_rowStart (u : Bool) (c : Controller) : (c.afterReset u).rowStart = none := rfl
@[simp] theorem afterReset_rowEnd (u : Bool) (c : Controller) : (c.afterReset u).rowEnd = none := rfl
@[simp] theorem afterReset_sleeping (u : Bool) (c : Controller) : (c.afterReset u).sleeping = none := rfl
@[simp] theorem afterReset_idle (u : Bool) (c : Controller) : (c.afterReset u).idle = none := rfl
@[simp] theorem afterReset_displayOn (u : Bool) (c : Controller) : (c.afterReset u).displayOn = none := rfl
@[simp] theorem afterReset_inverted (u : Bool) (c : Controller) : (c.afterReset u).inverted = c.inverted := rfl
@[simp] theorem afterReset_unlocked (u : Bool) (c : Controller) : (c.afterReset u).unlocked = if u then false else c.unlocked := rfl

@[simp] theorem withOrientation_phase (o : Orientation) (c : Controller) : (c.withOrientation o).phase = c.phase := rfl
@[simp] theorem withOrientation_pixfmt (o : Orientation) (c : Controller) : (c.withOrientation o).pixfmt = c.pixfmt := rfl
@[simp] theorem withOrientation_my (o : Orientation) (c : Controller) : (c.withOrientation o).my = some o.my := rfl
@[simp] theorem withOrientation_mx (o : Orientation) (c : Controller) : (c.withOrientation o).mx = some o.mx := rfl
@[simp] theorem withOrientation_mv (o : Orientation) (c : Controller) : (c.withOrientation o).mv = some o.mv := rfl
@[simp] theorem withOrientation_ml (o : Orientation) (c : Controller) : (c.withOrientation o).ml = some o.ml := rfl
@[simp] theorem withOrientation_bgr (o : Orientation) (c : Controller) : (c.withOrientation o).bgr = some o.bgr := rfl
@[simp] theorem withOrientation_mh (o : Orientation) (c : Controller) : (c.withOrientation o).mh = some o.mh := rfl
@[simp] theorem withOrientation_colStart (o : Orientation) (c : Controller) : (c.withOrientation o).colStart = c.colStart := rfl
@[simp] theorem withOrientation_colEnd (o : Orientation) (c : Controller) : (c.withOrientation o).colEnd = c.colEnd := rfl
@[simp] theorem withOrientation_rowStart (o : Orientation) (c : Controller) : (c.withOrientation o).rowStart = c.rowStart := rfl
@[simp] theorem withOrientation_rowEnd (o : Orientation) (c : Controller) : (c.withOrientation o).rowEnd = c.rowEnd := rfl
@[simp] theorem withOrientation_sleeping (o : Orientation) (c : Controller) : (c.withOrientation o).sleeping = c.sleeping := rfl
@[simp] theorem withOrientation_idle (o : Orientation) (c : Controller) : (c.withOrientation o).idle = c.idle := rfl
@[simp] theorem withOrientation_displayOn (o : Orientation) (c : Controller) : (c.withOrientation o).displayOn = c.displayOn := rfl
@[simp] theorem withOrientation_inverted (o : Orientation) (c : Controller) : (c.withOrientation o).inverted = c.inverted := rfl
@[simp] theorem withOrientation_unlocked (o : Orientation) (c : Controller) : (c.withOrientation o).unlocked = c.unlocked := rfl

@[simp] theorem withWindow_col_phase (a b : Half) (c : Controller) : (c.withWindow .col a b).phase = c.phase := rfl
@[simp] theorem withWindow_col_pixfmt (a b : Half) (c : Controller) : (c.withWindow .col a b).pixfmt = c.pixfmt := rfl
@[simp] theorem withWindow_col_my (a b : Half) (c : Controller) : (c.withWindow .col a b).my = c.my := rfl
@[simp] theorem withWindow_col_mx (a b : Half) (c : Controller) : (c.withWindow .col a b).mx = c.mx := rfl
@[simp] theorem withWindow_col_mv (a b : Half) (c : Controller) : (c.withWindow .col a b).mv = c.mv := rfl
@[simp] theorem withWindow_col_ml (a b : Half) (c : Controller) : (c.withWindow .col a b).ml = c.ml := rfl
@[simp] theorem withWindow_col_bgr (a b : Half) (c : Controller) : (c.withWindow .col a b).bgr = c.bgr := rfl
@[simp] theorem withWindow_col_mh (a b : Half) (c : Controller) : (c.withWindow .col a b).mh = c.mh := rfl
@[simp] theorem withWindow_col_colStart (a b : Half) (c : Controller) : (c.withWindow .col a b).colStart = some a := rfl
@[simp] theorem withWindow_col_colEnd (a b : Half) (c : Controller) : (c.withWindow .col a b).colEnd = some b := rfl
@[simp] theorem withWindow_col_rowStart (a b : Half) (c : Controller) : (c.withWindow .col a b).rowStart = c.rowStart := rfl
@[simp] theorem withWindow_col_rowEnd (a b : Half) (c : Controller) : (c.withWindow .col a b).rowEnd = c.rowEnd := rfl
@[simp] theorem withWindow_col_sleeping (a b : Half) (c : Controller) : (c.withWindow .col a b).sleeping = c.sleeping := rfl
@[simp] theorem withWindow_col_idle (a b : Half) (c : Controller) : (c.withWindow .col a b).idle = c.idle := rfl
@[simp] theorem withWindow_col_displayOn (a b : Half) (c : Controller) : (c.withWindow .col a b).displayOn = c.displayOn := rfl
@[simp] theorem withWindow_col_inverted (a b : Half) (c : Controller) : (c.withWindow .col a b).inverted = c.inverted := rfl
@[simp] theorem withWindow_col_unlocked (a b : Half) (c : Controller) : (c.withWindow .col a b).unlocked = c.unlocked := rfl

@[simp] theorem withWindow_row_phase (a b : Half) (c : Controller) : (c.withWindow .row a b).phase = c.phase := rfl
@[simp] theorem withWindow_row_pixfmt (a b : Half) (c : Controller) : (c.withWindow .row a b).pixfmt = c.pixfmt := rfl
@[simp] theorem withWindow_row_my (a b : Half) (c : Controller) : (c.withWindow .row a b).my = c.my := rfl
@[simp] theorem withWindow_row_mx (a b : Half) (c : Controller) : (c.withWindow .row a b).mx = c.mx := rfl
@[simp] theorem withWindow_row_mv (a b : Half) (c : Controller) : (c.withWindow .row a b).mv = c.mv := rfl
@[simp] theorem withWindow_row_ml (a b : Half) (c : Controller) : (c.withWindow .row a b).ml = c.ml := rfl
@[simp] theorem withWindow_row_bgr (a b : Half) (c : Controller) : (c.withWindow .row a b).bgr = c.bgr := rfl
@[simp] theorem withWindow_row_mh (a b : Half) (c : Controller) : (c.withWindow .row a b).mh = c.mh := rfl
@[simp] theorem withWindow_row_colStart (a b : Half) (c : Controller) : (c.withWindow .row a b).colStart = c.colStart := rfl
@[simp] theorem withWindow_row_colEnd (a b : Half) (c : Controller) : (c.withWindow .row a b).colEnd = c.colEnd := rfl
@[simp] theorem withWindow_row_rowStart (a b : Half) (c : Controller) : (c.withWindow .row a b).rowStart = some a := rfl
@[simp] theorem withWindow_row_rowEnd (a b : Half) (c : Controller) : (c.withWindow .row a b).rowEnd = some b := rfl
@[simp] theorem withWindow_row_sleeping (a b : Half) (c : Controller) : (c.withWindow .row a b).sleeping = c.sleeping := rfl
@[simp] theorem withWindow_row_idle (a b : Half) (c : Controller) : (c.withWindow .row a b).idle = c.idle := rfl
@[simp] theorem withWindow_row_displayOn (a b : Half) (c : Controller) : (c.withWindow .row a b).displayOn = c.displayOn := rfl
@[simp] theorem withWindow_row_inverted (a b : Half) (c : Controller) : (c.withWindow .row a b).inverted = c.inverted := rfl
@[simp] theorem withWindow_row_unlocked (a b : Half) (c : Controller) : (c.withWindow .row a b).unlocked = c.unlocked := rfl

end Sys2Proof.Machine
end

