-- ==== Sys2Proof/Laws/Ops.lean ====
section
/-! SUPPORT. What the shared operations do: one lemma for each that says it whole. -/

namespace Sys2Proof.Machine

/-! ## Events -/

theorem emits_cons (e : Event) (es : List Event) (s : State) : emits (e :: es) s = emits es (emit s e) := rfl

@[simp] theorem emits_nil (s : State) : emits [] s = s := rfl

theorem emits_append (as bs : List Event) (s : State) : emits (as ++ bs) s = emits bs (emits as s) := by
  simp [emits]

/-- Emitting changes the trace, the levels and the counter of free values, and nothing else. -/
theorem emits_eq (es : List Event) (s : State) :
    emits es s = { s with trace := s.trace ++ es, pins := (emits es s).pins, free := (emits es s).free } := by
  induction es generalizing s with
  | nil => simp
  | cons e es ih =>
    rw [emits_cons, ih]
    simp

@[simp] theorem emits_trace (es : List Event) (s : State) : (emits es s).trace = s.trace ++ es := by rw [emits_eq]
@[simp] theorem emits_cfg (es : List Event) (s : State) : (emits es s).cfg = s.cfg := by rw [emits_eq]
@[simp] theorem emits_cs (es : List Event) (s : State) : (emits es s).cs = s.cs := by rw [emits_eq]
@[simp] theorem emits_fb (es : List Event) (s : State) : (emits es s).fb = s.fb := by rw [emits_eq]
@[simp] theorem emits_responses (es : List Event) (s : State) : (emits es s).responses = s.responses := by rw [emits_eq]
@[simp] theorem emits_pc (es : List Event) (s : State) : (emits es s).pc = s.pc := by rw [emits_eq]
@[simp] theorem emits_requests (es : List Event) (s : State) : (emits es s).requests = s.requests := by rw [emits_eq]
@[simp] theorem emits_inflight (es : List Event) (s : State) : (emits es s).inflight = s.inflight := by rw [emits_eq]
@[simp] theorem emits_panel (es : List Event) (s : State) : (emits es s).panel = s.panel := by rw [emits_eq]
@[simp] theorem emits_faultMark (es : List Event) (s : State) : (emits es s).faultMark = s.faultMark := by rw [emits_eq]
@[simp] theorem emits_refusedMark (es : List Event) (s : State) : (emits es s).refusedMark = s.refusedMark := by
  rw [emits_eq]

/-- The levels but D[7:0] follow from the events alone. -/
theorem emits_levels (es : List Event) (s : State) (b : Byte) :
    { (emits es s).pins with d := b } = levelsAfter { s.pins with d := b } es := by
  induction es generalizing s with
  | nil => rfl
  | cons e es ih =>
    rw [emits_cons, ih]
    cases e <;> rfl

/-! ## Frames -/

theorem writeFrame_length (op : Byte) (params : List Byte) : (writeFrame op params).length = params.length + 5 := by
  simp [writeFrame]

theorem readFrame_length (op d : Byte) (bytes : List Byte) : (readFrame op (d :: bytes)).length = bytes.length + 8 := by
  simp [readFrame]

theorem levelsAfter_append (p : Pins) (as bs : List Event) :
    levelsAfter p (as ++ bs) = levelsAfter (levelsAfter p as) bs := by
  simp [levelsAfter]

theorem levelsAfter_cons (p : Pins) (e : Event) (es : List Event) :
    levelsAfter p (e :: es) = levelsAfter { p.after e 0 with d := p.d } es := rfl

/-- Write pulses leave every level but D[7:0] as it was once WRn is high. -/
theorem levelsAfter_writes (p : Pins) (hw : p.wrn = true) (bytes : List Byte) :
    levelsAfter p (bytes.map .wr) = p := by
  induction bytes with
  | nil => rfl
  | cons b bs ih => rw [List.map_cons, levelsAfter_cons]; simpa [Pins.after, ← hw] using ih

theorem levelsAfter_reads (p : Pins) (hr : p.rdn = true) (bytes : List Byte) :
    levelsAfter p (bytes.map .rd) = p := by
  induction bytes with
  | nil => rfl
  | cons b bs ih => rw [List.map_cons, levelsAfter_cons]; simpa [Pins.after, ← hr] using ih

/-- Idle lines are described by their one free value. -/
theorem idle_iff (p : Pins) : p.idle = true ↔ p = ⟨p.d, true, true, true, true, true, .output⟩ := by
  cases p
  simp [Pins.idle, and_assoc]

theorem levelsAfter_writeFrame (p : Pins) (h : p.idle = true) (op : Byte) (params : List Byte) :
    levelsAfter p (writeFrame op params) = p := by
  rw [idle_iff] at h
  rw [h, writeFrame, levelsAfter_append, levelsAfter_append]
  rw [levelsAfter_writes _ (by rfl)]
  rfl

theorem levelsAfter_readFrame (p : Pins) (h : p.idle = true) (op : Byte) (bytes : List Byte) :
    levelsAfter p (readFrame op bytes) = p := by
  rw [idle_iff] at h
  rw [h, readFrame, levelsAfter_append, levelsAfter_append]
  rw [levelsAfter_reads _ (by simp [levelsAfter, Pins.after])]
  rfl

/-- Events that leave the levels as they were leave idle lines idle. -/
theorem emits_idle (es : List Event) (s : State) (h : s.pins.idle = true)
    (hl : levelsAfter { s.pins with d := 0 } es = { s.pins with d := 0 }) : (emits es s).pins.idle = true := by
  have := emits_levels es s 0
  rw [hl] at this
  have hi : ({ (emits es s).pins with d := 0 } : Pins).idle = true := by rw [this]; simpa [Pins.idle] using h
  simpa [Pins.idle] using hi

/-! ## The panel's bytes -/

/-- Drawing a byte takes it from the list, or takes a free value; nothing else changes. -/
theorem panelByte_eq (s : State) :
    (panelByte s).2 = { s with panel := s.panel.drop 1, free := (panelByte s).2.free } := by
  unfold panelByte
  cases h : s.panel with
  | nil => simp
  | cons b bs => simp

/-- Drawing `n` bytes takes the first `n` of the list, and free values once it is used up; nothing else changes. -/
theorem panelBytes_eq (n : Nat) (s : State) :
    (panelBytes n s).2 = { s with panel := s.panel.drop n, free := (panelBytes n s).2.free } := by
  induction n generalizing s with
  | zero => rfl
  | succ n ih =>
    have h : (panelBytes (n + 1) s).2 = (panelBytes n (panelByte s).2).2 := rfl
    rw [h, ih, panelByte_eq]
    simp

@[simp] theorem panelBytes_cfg (n : Nat) (s : State) : (panelBytes n s).2.cfg = s.cfg := by rw [panelBytes_eq]
@[simp] theorem panelBytes_pins (n : Nat) (s : State) : (panelBytes n s).2.pins = s.pins := by rw [panelBytes_eq]
@[simp] theorem panelBytes_cs (n : Nat) (s : State) : (panelBytes n s).2.cs = s.cs := by rw [panelBytes_eq]
@[simp] theorem panelBytes_fb (n : Nat) (s : State) : (panelBytes n s).2.fb = s.fb := by rw [panelBytes_eq]
@[simp] theorem panelBytes_trace (n : Nat) (s : State) : (panelBytes n s).2.trace = s.trace := by rw [panelBytes_eq]
@[simp] theorem panelBytes_responses (n : Nat) (s : State) : (panelBytes n s).2.responses = s.responses := by rw [panelBytes_eq]
@[simp] theorem panelBytes_pc (n : Nat) (s : State) : (panelBytes n s).2.pc = s.pc := by rw [panelBytes_eq]
@[simp] theorem panelBytes_requests (n : Nat) (s : State) : (panelBytes n s).2.requests = s.requests := by rw [panelBytes_eq]
@[simp] theorem panelBytes_inflight (n : Nat) (s : State) : (panelBytes n s).2.inflight = s.inflight := by rw [panelBytes_eq]
@[simp] theorem panelBytes_panel (n : Nat) (s : State) : (panelBytes n s).2.panel = s.panel.drop n := by rw [panelBytes_eq]
@[simp] theorem panelBytes_faultMark (n : Nat) (s : State) : (panelBytes n s).2.faultMark = s.faultMark := by rw [panelBytes_eq]
@[simp] theorem panelBytes_refusedMark (n : Nat) (s : State) : (panelBytes n s).2.refusedMark = s.refusedMark := by rw [panelBytes_eq]

@[simp] theorem panelBytes_length (n : Nat) (s : State) : (panelBytes n s).1.length = n := by
  induction n generalizing s with
  | zero => rfl
  | succ n ih =>
    have h : (panelBytes (n + 1) s).1 = (panelByte s).1 :: (panelBytes n (panelByte s).2).1 := rfl
    rw [h]; simp [ih]

/-- The bytes drawn are the oracle's. -/
theorem panelBytes_oracle (n : Nat) (s : State) : OracleAnswers s (panelBytes n s).1 := by
  unfold OracleAnswers
  rw [panelBytes_length]
  induction n generalizing s with
  | zero => simp [panelBytes]
  | succ n ih =>
    have h : (panelBytes (n + 1) s).1 = (panelByte s).1 :: (panelBytes n (panelByte s).2).1 := rfl
    rw [h]
    cases hp : s.panel with
    | nil => simp
    | cons b bs =>
      have := ih (panelByte s).2
      rw [panelByte_eq] at this
      simp only [hp, List.drop_succ_cons, List.drop_zero] at this
      simp [panelByte, hp] at this ⊢
      exact this

/-! ## Framebuffer cells -/

theorem read_write_same (m : Memory) (i : Nat) (v : Pixel) : (m.write i v).read i = some v := by
  induction m with
  | nil => simp [Memory.write, Memory.read]
  | cons c rest ih =>
    obtain ⟨j, w⟩ := c
    simp only [Memory.write]
    split
    · simp [Memory.read]
    · split
      · simp [Memory.read]
      · simp [Memory.read, *]

theorem read_write_other (m : Memory) (i k : Nat) (v : Pixel) (h : k ≠ i) : (m.write i v).read k = m.read k := by
  induction m with
  | nil => simp [Memory.write, Memory.read, h]
  | cons c rest ih =>
    obtain ⟨j, w⟩ := c
    simp only [Memory.write]
    split
    · simp [Memory.read, h]
    · split
      · subst_vars; simp [Memory.read, h]
      · simp [Memory.read, ih]

/-- The canonical form, said of the list of indices. -/
theorem wf_iff (m : Memory) : m.wf = true ↔ (m.map Prod.fst).Pairwise (· < ·) := by
  induction m with
  | nil => simp [Memory.wf]
  | cons c rest ih =>
    obtain ⟨i, v⟩ := c
    cases rest with
    | nil => simp [Memory.wf]
    | cons d rest =>
      obtain ⟨j, w⟩ := d
      simp only [Memory.wf, Bool.and_eq_true, decide_eq_true_eq, ih]
      simp only [List.map_cons, List.pairwise_cons, List.mem_cons, List.mem_map]
      constructor
      · rintro ⟨hij, hj, hr⟩
        refine ⟨?_, hj, hr⟩
        rintro k (rfl | hk)
        · exact hij
        · exact lt_trans hij (hj k hk)
      · rintro ⟨h, hj, hr⟩
        exact ⟨h j (.inl rfl), hj, hr⟩

theorem mem_write (m : Memory) (i : Nat) (v : Pixel) (c : Nat × Pixel) (h : c ∈ m.write i v) :
    c.1 = i ∨ c ∈ m := by
  induction m with
  | nil => simp only [Memory.write, List.mem_singleton] at h; simp [h]
  | cons d rest ih =>
    obtain ⟨j, w⟩ := d
    simp only [Memory.write] at h
    split at h
    · rcases List.mem_cons.1 h with rfl | h
      · exact .inl rfl
      · exact .inr h
    · split at h
      · rcases List.mem_cons.1 h with rfl | h
        · exact .inl rfl
        · exact .inr (List.mem_cons_of_mem _ h)
      · rcases List.mem_cons.1 h with rfl | h
        · exact .inr (by simp)
        · rcases ih h with h | h
          · exact .inl h
          · exact .inr (List.mem_cons_of_mem _ h)

theorem wf_write (m : Memory) (i : Nat) (v : Pixel) (h : m.wf = true) : (m.write i v).wf = true := by
  rw [wf_iff] at h ⊢
  induction m with
  | nil => simp [Memory.write]
  | cons c rest ih =>
    obtain ⟨j, w⟩ := c
    simp only [List.map_cons, List.pairwise_cons, List.mem_map] at h
    simp only [Memory.write]
    split
    next hij =>
      simp only [List.map_cons, List.pairwise_cons, List.mem_cons, List.mem_map]
      refine ⟨?_, h.1, h.2⟩
      rintro k (rfl | hk)
      · exact hij
      · exact lt_trans hij (h.1 k hk)
    next hij =>
      split
      next heq =>
        subst heq
        simpa only [List.map_cons, List.pairwise_cons, List.mem_map] using h
      next hne =>
        simp only [List.map_cons, List.pairwise_cons, List.mem_map]
        refine ⟨?_, ih h.2⟩
        rintro k ⟨d, hd, rfl⟩
        rcases mem_write _ _ _ _ hd with hd | hd
        · omega
        · exact h.1 _ ⟨d, hd, rfl⟩

theorem wf_writeAll (m : Memory) (ws : List (Nat × Pixel)) (h : m.wf = true) : (m.writeAll ws).wf = true := by
  induction ws generalizing m with
  | nil => exact h
  | cons w ws ih => exact ih _ (wf_write _ _ _ h)

theorem mem_writeAll (m : Memory) (ws : List (Nat × Pixel)) (c : Nat × Pixel) (h : c ∈ m.writeAll ws) :
    (∃ w ∈ ws, w.1 = c.1) ∨ c ∈ m := by
  induction ws generalizing m with
  | nil => exact .inr h
  | cons w ws ih =>
    rcases ih _ h with ⟨u, hu, he⟩ | h
    · exact .inl ⟨u, List.mem_cons_of_mem _ hu, he⟩
    · rcases mem_write _ _ _ _ h with h | h
      · exact .inl ⟨w, by simp, h.symm⟩
      · exact .inr h

theorem wf_filled (n : Nat) (color : Pixel) : (Memory.filled n color).wf = true := by
  rw [wf_iff]
  have h : (Memory.filled n color).map Prod.fst = List.range n := by simp [Memory.filled, Function.comp_def]
  rw [h]
  exact List.pairwise_lt_range

theorem mem_filled (n : Nat) (color : Pixel) (c : Nat × Pixel) (h : c ∈ Memory.filled n color) : c.1 < n := by
  simp only [Memory.filled, List.mem_map, List.mem_range] at h
  obtain ⟨i, hi, rfl⟩ := h
  exact hi

theorem wf_reset : (State.reset.fb).wf = true := rfl

/-- A listed cell reads as listed, in a canonical memory. -/
theorem read_of_mem (m : Memory) (h : m.wf = true) (i : Nat) (v : Pixel) (hm : (i, v) ∈ m) : m.read i = some v := by
  rw [wf_iff] at h
  induction m with
  | nil => simp at hm
  | cons c rest ih =>
    obtain ⟨j, w⟩ := c
    simp only [List.map_cons, List.pairwise_cons, List.mem_map] at h
    rcases List.mem_cons.1 hm with hm | hm
    · simp only [Prod.mk.injEq] at hm
      simp [Memory.read, hm.1, hm.2]
    · have := h.1 i ⟨_, hm, rfl⟩
      simp [Memory.read, Nat.ne_of_gt this, ih h.2 hm]

/-- What an unlisted cell reads as. -/
theorem read_of_not_mem (m : Memory) (i : Nat) (h : ∀ c ∈ m, c.1 ≠ i) : m.read i = none := by
  induction m with
  | nil => rfl
  | cons c rest ih =>
    obtain ⟨j, w⟩ := c
    have := h (j, w) (by simp)
    simp only [Memory.read]
    rw [if_neg (fun e => this e.symm)]
    exact ih fun d hd => h d (List.mem_cons_of_mem _ hd)

/-- A filled memory reads as its colour inside and UNWRITTEN outside. -/
theorem read_filled (n : Nat) (color : Pixel) (i : Nat) :
    (Memory.filled n color).read i = if i < n then some color else none := by
  split
  next h => exact read_of_mem _ (wf_filled n color) _ _ (by simp [Memory.filled, h])
  next h => exact read_of_not_mem _ _ fun c hc he => h (he ▸ mem_filled _ _ _ hc)

/-- After writes in order a cell reads as one of them, where those to that cell all wrote the same; else as before. -/
theorem read_writeAll (ws : List (Nat × Pixel)) (m : Memory) (i : Nat) (v : Option Pixel)
    (hv : ∀ w ∈ ws, w.1 = i → some w.2 = v) :
    (m.writeAll ws).read i = if ∃ w ∈ ws, w.1 = i then v else m.read i := by
  induction ws generalizing m with
  | nil => simp [Memory.writeAll]
  | cons w ws ih =>
    have h := ih (m.write w.1 w.2) (fun u hu => hv u (List.mem_cons_of_mem _ hu))
    change ((m.write w.1 w.2).writeAll ws).read i = _
    rw [h]
    by_cases h1 : ∃ u ∈ ws, u.1 = i
    · rw [if_pos h1, if_pos]
      obtain ⟨u, hu, h1⟩ := h1
      exact ⟨u, List.mem_cons_of_mem _ hu, h1⟩
    · rw [if_neg h1]
      by_cases h2 : w.1 = i
      · rw [if_pos ⟨w, by simp, h2⟩, ← hv w (by simp) h2, ← h2, read_write_same]
      · rw [if_neg, read_write_other _ _ _ _ (fun e => h2 e.symm)]
        rintro ⟨u, hu, he⟩
        rcases List.mem_cons.1 hu with rfl | hu
        · exact h2 he
        · exact h1 ⟨u, hu, he⟩

/-- The writes of a BLIT: one for each source pixel that lands in the buffer (43_framebuffer.md R221). -/
theorem mem_blitWrites (dims : Nat × Nat) (sw sh : Nat) (x y : Int) (src : List Pixel) (i : Nat) (v : Pixel) :
    (i, v) ∈ blitWrites dims sw sh x y src ↔
      ∃ sx sy, sx < sw ∧ sy < sh ∧ 0 ≤ x + sx ∧ x + sx < dims.1 ∧ 0 ≤ y + sy ∧ y + sy < dims.2 ∧
        i = (y + sy).toNat * dims.1 + (x + sx).toNat ∧ src[sy * sw + sx]? = some v := by
  simp only [blitWrites, List.mem_flatMap, List.mem_range, List.mem_filterMap, blitIndex]
  constructor
  · rintro ⟨sy, hy, sx, hx, h⟩
    refine ⟨sx, sy, hx, hy, ?_⟩
    split at h
    next j u hj hu =>
      split at hj
      next hc =>
        simp only [Option.some.injEq, Prod.mk.injEq] at hj h
        exact ⟨hc.1, hc.2.1, hc.2.2.1, hc.2.2.2, by rw [← h.1, ← hj], by rw [hu, h.2]⟩
      next => cases hj
    next => cases h
  · rintro ⟨sx, sy, hx, hy, h1, h2, h3, h4, rfl, h6⟩
    refine ⟨sy, hy, sx, hx, ?_⟩
    rw [if_pos ⟨h1, h2, h3, h4⟩, h6]

/-- FLUSH finds every cell written exactly when none of the first `n` is UNWRITTEN. -/
theorem allWritten_iff (m : Memory) (n : Nat) : m.allWritten n = true ↔ ∀ i, i < n → m.read i ≠ none := by
  simp [Memory.allWritten, Option.isSome_iff_ne_none]

/-! ## Fields of a request -/

@[simp] theorem takeHalf_bytes (h : Half) (rest : List Byte) : takeHalf (Half.bytes h ++ rest) = some (h, rest) := by
  simp only [Half.bytes, List.cons_append, List.nil_append, takeHalf, Option.some.injEq, Prod.mk.injEq, and_true]
  unfold Half.ofBytes
  ext i hi
  simp only [BitVec.getElem_append, BitVec.getElem_extractLsb']
  split
  · rw [← BitVec.getLsbD_eq_getElem]; congr 1; omega
  · rw [← BitVec.getLsbD_eq_getElem]; congr 1; omega

@[simp] theorem takeWord_bytes (w : Word) (rest : List Byte) : takeWord (Word.bytes w ++ rest) = some (w, rest) := by
  simp only [Word.bytes, List.cons_append, List.nil_append, takeWord, Option.some.injEq, Prod.mk.injEq, and_true]
  unfold Word.ofBytes
  ext i hi
  simp only [BitVec.getElem_append, BitVec.getElem_extractLsb']
  split
  · rw [← BitVec.getLsbD_eq_getElem]; congr 1; omega
  · split
    · rw [← BitVec.getLsbD_eq_getElem]; congr 1; omega
    · split <;> (rw [← BitVec.getLsbD_eq_getElem]; congr 1; omega)

@[simp] theorem takeList_bytes (l rest : List Byte) (h : listFits l = true) :
    takeList (listBytes l ++ rest) = some (l, rest) := by
  have hl : l.length < 2 ^ 32 := by simpa [listFits] using h
  have hn : (BitVec.ofNat 32 l.length).toNat = l.length := by simp; omega
  rw [listBytes, List.append_assoc, takeList, takeWord_bytes]
  simp [Parse.andThen, hn]

/-- Fields that a parser reads back one at a time are read back as a list. -/
theorem takeMany_flatMap {α : Type} (take : List Byte → Parse α) (bytes : α → List Byte)
    (h : ∀ a rest, take (bytes a ++ rest) = some (a, rest)) (l : List α) (rest : List Byte) :
    takeMany take l.length (l.flatMap bytes ++ rest) = some (l, rest) := by
  induction l with
  | nil => rfl
  | cons a l ih =>
    simp [takeMany, List.append_assoc, h, Parse.andThen, Parse.as, ih]

end Sys2Proof.Machine
end

