-- ==== Sys2Proof/Laws/Commands.lean ====
section
/-! SUPPORT. What frames, delays, resets and the bus commands do: one lemma per field, and one `Emitted` lemma each. -/

namespace Sys2Proof.Machine

/-! ## Fields after the bus operations -/

@[simp] theorem frameWrite_trace (op : Byte) (ps : List Byte) (s : State) : (frameWrite op ps s).trace = s.trace ++ writeFrame op ps := by
  simp [frameWrite]
@[simp] theorem frameWrite_cfg (op : Byte) (ps : List Byte) (s : State) : (frameWrite op ps s).cfg = s.cfg := by simp [frameWrite]
@[simp] theorem frameWrite_cs (op : Byte) (ps : List Byte) (s : State) : (frameWrite op ps s).cs = s.cs := by simp [frameWrite]
@[simp] theorem frameWrite_fb (op : Byte) (ps : List Byte) (s : State) : (frameWrite op ps s).fb = s.fb := by simp [frameWrite]
@[simp] theorem frameWrite_responses (op : Byte) (ps : List Byte) (s : State) : (frameWrite op ps s).responses = s.responses := by simp [frameWrite]
@[simp] theorem frameWrite_pc (op : Byte) (ps : List Byte) (s : State) : (frameWrite op ps s).pc = s.pc := by simp [frameWrite]
@[simp] theorem frameWrite_requests (op : Byte) (ps : List Byte) (s : State) : (frameWrite op ps s).requests = s.requests := by simp [frameWrite]
@[simp] theorem frameWrite_inflight (op : Byte) (ps : List Byte) (s : State) : (frameWrite op ps s).inflight = s.inflight := by simp [frameWrite]
@[simp] theorem frameWrite_panel (op : Byte) (ps : List Byte) (s : State) : (frameWrite op ps s).panel = s.panel := by simp [frameWrite]
@[simp] theorem frameWrite_faultMark (op : Byte) (ps : List Byte) (s : State) : (frameWrite op ps s).faultMark = s.faultMark := by simp [frameWrite]
@[simp] theorem frameWrite_refusedMark (op : Byte) (ps : List Byte) (s : State) : (frameWrite op ps s).refusedMark = s.refusedMark := by simp [frameWrite]

@[simp] theorem delay_trace (ms : Nat) (s : State) : (delay ms s).trace = s.trace ++ [.delay ms] := by
  simp [delay]
@[simp] theorem delay_cfg (ms : Nat) (s : State) : (delay ms s).cfg = s.cfg := by simp [delay]
@[simp] theorem delay_cs (ms : Nat) (s : State) : (delay ms s).cs = s.cs := by simp [delay]
@[simp] theorem delay_fb (ms : Nat) (s : State) : (delay ms s).fb = s.fb := by simp [delay]
@[simp] theorem delay_responses (ms : Nat) (s : State) : (delay ms s).responses = s.responses := by simp [delay]
@[simp] theorem delay_pc (ms : Nat) (s : State) : (delay ms s).pc = s.pc := by simp [delay]
@[simp] theorem delay_requests (ms : Nat) (s : State) : (delay ms s).requests = s.requests := by simp [delay]
@[simp] theorem delay_inflight (ms : Nat) (s : State) : (delay ms s).inflight = s.inflight := by simp [delay]
@[simp] theorem delay_panel (ms : Nat) (s : State) : (delay ms s).panel = s.panel := by simp [delay]
@[simp] theorem delay_faultMark (ms : Nat) (s : State) : (delay ms s).faultMark = s.faultMark := by simp [delay]
@[simp] theorem delay_refusedMark (ms : Nat) (s : State) : (delay ms s).refusedMark = s.refusedMark := by simp [delay]

@[simp] theorem hwReset_trace (s : State) : (hwReset s).trace = s.trace ++ hwResetEvents := by
  simp [hwReset]
@[simp] theorem hwReset_cfg (s : State) : (hwReset s).cfg = s.cfg := by simp [hwReset]
@[simp] theorem hwReset_cs (s : State) : (hwReset s).cs = s.cs := by simp [hwReset]
@[simp] theorem hwReset_fb (s : State) : (hwReset s).fb = s.fb := by simp [hwReset]
@[simp] theorem hwReset_responses (s : State) : (hwReset s).responses = s.responses := by simp [hwReset]
@[simp] theorem hwReset_pc (s : State) : (hwReset s).pc = s.pc := by simp [hwReset]
@[simp] theorem hwReset_requests (s : State) : (hwReset s).requests = s.requests := by simp [hwReset]
@[simp] theorem hwReset_inflight (s : State) : (hwReset s).inflight = s.inflight := by simp [hwReset]
@[simp] theorem hwReset_panel (s : State) : (hwReset s).panel = s.panel := by simp [hwReset]
@[simp] theorem hwReset_faultMark (s : State) : (hwReset s).faultMark = s.faultMark := by simp [hwReset]
@[simp] theorem hwReset_refusedMark (s : State) : (hwReset s).refusedMark = s.refusedMark := by simp [hwReset]

@[simp] theorem swReset_trace (s : State) : (swReset s).trace = s.trace ++ (writeFrame 0x01 [] ++ [.delay 5]) := by
  simp [swReset]
@[simp] theorem swReset_cfg (s : State) : (swReset s).cfg = s.cfg := by simp [swReset]
@[simp] theorem swReset_cs (s : State) : (swReset s).cs = s.cs := by simp [swReset]
@[simp] theorem swReset_fb (s : State) : (swReset s).fb = s.fb := by simp [swReset]
@[simp] theorem swReset_responses (s : State) : (swReset s).responses = s.responses := by simp [swReset]
@[simp] theorem swReset_pc (s : State) : (swReset s).pc = s.pc := by simp [swReset]
@[simp] theorem swReset_requests (s : State) : (swReset s).requests = s.requests := by simp [swReset]
@[simp] theorem swReset_inflight (s : State) : (swReset s).inflight = s.inflight := by simp [swReset]
@[simp] theorem swReset_panel (s : State) : (swReset s).panel = s.panel := by simp [swReset]
@[simp] theorem swReset_faultMark (s : State) : (swReset s).faultMark = s.faultMark := by simp [swReset]
@[simp] theorem swReset_refusedMark (s : State) : (swReset s).refusedMark = s.refusedMark := by simp [swReset]

/-- A read frame emits the dummy byte and the `n` bytes it answers with. -/
theorem frameRead_trace (op : Byte) (n : Nat) (s : State) :
    (frameRead op n s).2.trace = s.trace ++ readFrame op (panelBytes (n + 1) s).1 := by
  simp [frameRead]

@[simp] theorem frameRead_cfg (op : Byte) (n : Nat) (s : State) : (frameRead op n s).2.cfg = s.cfg := by
  simp [frameRead]
@[simp] theorem frameRead_cs (op : Byte) (n : Nat) (s : State) : (frameRead op n s).2.cs = s.cs := by
  simp [frameRead]
@[simp] theorem frameRead_fb (op : Byte) (n : Nat) (s : State) : (frameRead op n s).2.fb = s.fb := by
  simp [frameRead]
@[simp] theorem frameRead_responses (op : Byte) (n : Nat) (s : State) : (frameRead op n s).2.responses = s.responses := by
  simp [frameRead]
@[simp] theorem frameRead_pc (op : Byte) (n : Nat) (s : State) : (frameRead op n s).2.pc = s.pc := by
  simp [frameRead]
@[simp] theorem frameRead_requests (op : Byte) (n : Nat) (s : State) : (frameRead op n s).2.requests = s.requests := by
  simp [frameRead]
@[simp] theorem frameRead_inflight (op : Byte) (n : Nat) (s : State) : (frameRead op n s).2.inflight = s.inflight := by
  simp [frameRead]
@[simp] theorem frameRead_panel (op : Byte) (n : Nat) (s : State) : (frameRead op n s).2.panel = s.panel.drop (n + 1) := by
  simp [frameRead]
@[simp] theorem frameRead_faultMark (op : Byte) (n : Nat) (s : State) : (frameRead op n s).2.faultMark = s.faultMark := by
  simp [frameRead]
@[simp] theorem frameRead_refusedMark (op : Byte) (n : Nat) (s : State) : (frameRead op n s).2.refusedMark = s.refusedMark := by
  simp [frameRead]

theorem frameRead_bytes (op : Byte) (n : Nat) (s : State) : (frameRead op n s).1 = (panelBytes (n + 1) s).1.drop 1 := rfl

@[simp] theorem frameRead_length (op : Byte) (n : Nat) (s : State) : (frameRead op n s).1.length = n := by
  simp [frameRead_bytes]

/-! ## Effects -/

theorem Emitted.refl (s : State) : Emitted s s [] := ⟨by simp, id, rfl, rfl, rfl, rfl, rfl⟩

theorem Emitted.trans {s t u : State} {as bs : List Event} (h : Emitted s t as) (k : Emitted t u bs) :
    Emitted s u (as ++ bs) :=
  ⟨by rw [k.trace, h.trace, List.append_assoc], fun p => k.pins (h.pins p), k.cfg.trans h.cfg,
    k.requests.trans h.requests, k.inflight.trans h.inflight, k.faultMark.trans h.faultMark,
    k.refusedMark.trans h.refusedMark⟩

/-- Writing the Controller State emits nothing. -/
theorem Emitted.modifyCs {s t : State} {es : List Event} (h : Emitted s t es) (f : Controller → Controller) :
    Emitted s (t.modifyCs f) es :=
  ⟨h.trace, h.pins, h.cfg, h.requests, h.inflight, h.faultMark, h.refusedMark⟩

/-- Events that bring idle levels back to idle are an effect. -/
theorem emits_emitted (es : List Event) (s : State)
    (h : ∀ p : Pins, p.idle = true → levelsAfter p es = p) : Emitted s (emits es s) es :=
  ⟨by simp, fun p => emits_idle es s p (h _ (by simpa [Pins.idle] using p)), by simp, by simp, by simp, by simp, by simp⟩

theorem frameWrite_emitted (op : Byte) (ps : List Byte) (s : State) :
    Emitted s (frameWrite op ps s) (writeFrame op ps) :=
  emits_emitted _ _ fun p h => levelsAfter_writeFrame p h op ps

theorem delay_emitted (ms : Nat) (s : State) : Emitted s (delay ms s) [.delay ms] := emits_emitted _ _ fun _ _ => rfl

theorem hwReset_emitted (s : State) : Emitted s (hwReset s) hwResetEvents :=
  emits_emitted _ _ fun p h => by rw [idle_iff] at h; rw [h]; rfl

theorem swReset_emitted (s : State) : Emitted s (swReset s) (writeFrame 0x01 [] ++ [.delay 5]) :=
  (frameWrite_emitted 0x01 [] s).trans (delay_emitted 5 _)

theorem frameRead_emitted (op : Byte) (n : Nat) (s : State) :
    Emitted s (frameRead op n s).2 (readFrame op (panelBytes (n + 1) s).1) := by
  have hp : (panelBytes (n + 1) s).2.pins = s.pins := by rw [panelBytes_eq]
  have h := emits_emitted (readFrame op (panelBytes (n + 1) s).1) (panelBytes (n + 1) s).2
    fun p h => levelsAfter_readFrame p h op _
  exact ⟨frameRead_trace op n s, fun i => h.pins (by rw [hp]; exact i), by simp, by simp, by simp, by simp, by simp⟩

/-- The bytes a read frame draws: the dummy byte, then those it answers with; they are the oracle's. -/
theorem frameRead_draws (op : Byte) (n : Nat) (s : State) :
    ∃ d, (panelBytes (n + 1) s).1 = d :: (frameRead op n s).1 ∧ OracleAnswers s (d :: (frameRead op n s).1) := by
  have h := panelBytes_length (n + 1) s
  have ho := panelBytes_oracle (n + 1) s
  rw [frameRead_bytes]
  cases hb : (panelBytes (n + 1) s).1 with
  | nil => rw [hb] at h; simp at h
  | cons d ds => exact ⟨d, rfl, hb ▸ ho⟩

/-- The status word of four bytes, the first one highest. -/
theorem statusWord_four (a b c d : Byte) : statusWord [a, b, c, d] = Word.ofBytes a b c d := by
  simp only [statusWord, List.foldl, Word.ofBytes]
  apply BitVec.eq_of_getLsbD_eq
  intro i hi
  simp only [BitVec.getLsbD_or, BitVec.getLsbD_shiftLeft, BitVec.getLsbD_append, BitVec.getLsbD_setWidth]
  interval_cases i <;> simp

theorem four_of_length {α : Type} {l : List α} (h : l.length = 4) : ∃ a b c d, l = [a, b, c, d] := by
  match l, h with
  | [a, b, c, d], _ => exact ⟨a, b, c, d, rfl⟩

/-- A status read draws the dummy byte and four bytes; it emits its frame, writes the orientation fields from the word
the four make, and nothing else. -/
theorem readStatus_draws (s : State) :
    ∃ d b0 b1 b2 b3, OracleAnswers s [d, b0, b1, b2, b3] ∧ (readStatus s).1 = [b0, b1, b2, b3] ∧
      Emitted s (readStatus s).2 (readFrame 0x09 [d, b0, b1, b2, b3]) ∧
      (readStatus s).2.cs =
        s.cs.withOrientation (statusDecode s.cfg.statusLayout (Word.ofBytes b0 b1 b2 b3)).orientation := by
  obtain ⟨d, hd, ho⟩ := frameRead_draws 0x09 4 s
  have he := frameRead_emitted 0x09 4 s
  obtain ⟨b0, b1, b2, b3, hb⟩ := four_of_length (frameRead_length 0x09 4 s)
  rw [hd, hb] at he
  rw [hb] at ho
  refine ⟨d, b0, b1, b2, b3, ho, hb, he.modifyCs _, ?_⟩
  simp only [readStatus, modifyCs_cs, frameRead_cs, hb, statusWord_four]

/-- A response turns an effect into an answer. -/
theorem Emitted.answers {s t : State} {es : List Event} (h : Emitted s t es) (hr : t.responses = s.responses)
    (hp : t.pc = s.pc) (r : Response) : Answers s (respond r t) es r :=
  ⟨⟨h.trace, h.pins, h.cfg, h.requests, h.inflight, h.faultMark, h.refusedMark⟩, by simp [hr], by simp [hp]⟩

theorem Emitted.issues {s t : State} {es : List Event} (h : Emitted s t es) (hr : t.responses = s.responses)
    (hp : t.pc = s.pc) : Issues s t es := ⟨h, hr, hp⟩

/-! ## The bus commands -/

theorem softwareReset_emitted (s : State) : Emitted s (softwareReset s) (writeFrame 0x01 [] ++ [.delay 5]) :=
  (swReset_emitted s).modifyCs _

theorem hardwareReset_emitted (s : State) : Emitted s (hardwareReset s) hwResetEvents := (hwReset_emitted s).modifyCs _

theorem sleepIn_emitted (s : State) : Emitted s (sleepIn s) (writeFrame 0x10 []) := (frameWrite_emitted _ _ s).modifyCs _

theorem sleepOut_emitted (s : State) : Emitted s (sleepOut s) (writeFrame 0x11 [] ++ [.delay 120]) :=
  ((frameWrite_emitted 0x11 [] s).trans (delay_emitted 120 _)).modifyCs _

theorem displayOff_emitted (op : Byte) (s : State) : Emitted s (displayOff op s) (writeFrame op []) :=
  (frameWrite_emitted _ _ s).modifyCs _

theorem displayOn_emitted (s : State) : Emitted s (displayOn s) (writeFrame 0x29 []) :=
  (frameWrite_emitted _ _ s).modifyCs _

theorem writeWindow_emitted (axis : Axis) (a b : Half) (s : State) :
    Emitted s (writeWindow axis a b s) (writeFrame (axisOpcode axis) (windowParams a b)) :=
  (frameWrite_emitted _ _ s).modifyCs _

theorem writeFullWindow_emitted (axis : Axis) (mv : Bool) (s : State) :
    Emitted s (writeFullWindow axis mv s)
      (writeFrame (axisOpcode axis) (windowParams 0 (BitVec.ofNat 16 (maxEnd s.cfg axis mv)))) :=
  writeWindow_emitted _ _ _ s

theorem writeOrientation_emitted (m : Byte) (s : State) : Emitted s (writeOrientation m s) (writeFrame 0x36 [m]) :=
  (frameWrite_emitted _ _ s).modifyCs _

theorem idleOff_emitted (s : State) : Emitted s (idleOff s) (writeFrame 0x38 []) := (frameWrite_emitted _ _ s).modifyCs _

theorem idleOn_emitted (s : State) : Emitted s (idleOn s) (writeFrame 0x39 []) := (frameWrite_emitted _ _ s).modifyCs _

theorem setFormat16_emitted (s : State) : Emitted s (setFormat16 s) (writeFrame 0x3A [s.cfg.pf16Code]) :=
  (frameWrite_emitted _ _ s).modifyCs _

@[simp] theorem readStatus_cfg (s : State) : (readStatus s).2.cfg = s.cfg := by
  simp [readStatus]
@[simp] theorem readStatus_fb (s : State) : (readStatus s).2.fb = s.fb := by
  simp [readStatus]
@[simp] theorem readStatus_responses (s : State) : (readStatus s).2.responses = s.responses := by
  simp [readStatus]
@[simp] theorem readStatus_pc (s : State) : (readStatus s).2.pc = s.pc := by
  simp [readStatus]
@[simp] theorem readStatus_requests (s : State) : (readStatus s).2.requests = s.requests := by
  simp [readStatus]
@[simp] theorem readStatus_inflight (s : State) : (readStatus s).2.inflight = s.inflight := by
  simp [readStatus]
@[simp] theorem readStatus_panel (s : State) : (readStatus s).2.panel = s.panel.drop 5 := by
  simp [readStatus]
@[simp] theorem readStatus_faultMark (s : State) : (readStatus s).2.faultMark = s.faultMark := by
  simp [readStatus]
@[simp] theorem readStatus_refusedMark (s : State) : (readStatus s).2.refusedMark = s.refusedMark := by
  simp [readStatus]

/-- The three frames of the unlock sequence, as one list of events. -/
theorem unlockEvents_eq : writeFrame 0xFE [] ++ writeFrame 0xEF [] ++ writeFrame 0xB6 [0x07] = unlockEvents := by decide

theorem ensureUnlocked_emitted (s : State) :
    Emitted s (ensureUnlocked s) (if s.cs.unlocked then [] else unlockEvents) := by
  unfold ensureUnlocked
  split
  · exact Emitted.refl s
  · rw [← unlockEvents_eq]
    exact (((frameWrite_emitted 0xFE [] s).trans (frameWrite_emitted 0xEF [] _)).trans
      (frameWrite_emitted 0xB6 [0x07] _)).modifyCs _

/-- Unlocking leaves the flag set. -/
theorem ensureUnlocked_cs (s : State) :
    (ensureUnlocked s).cs =
      { s.cs with unlocked := true } := by
  unfold ensureUnlocked
  split
  next h => rw [← h]
  next h => simp

@[simp] theorem ensureUnlocked_cfg (s : State) : (ensureUnlocked s).cfg = s.cfg := by
  unfold ensureUnlocked; split <;> simp
@[simp] theorem ensureUnlocked_fb (s : State) : (ensureUnlocked s).fb = s.fb := by
  unfold ensureUnlocked; split <;> simp
@[simp] theorem ensureUnlocked_responses (s : State) : (ensureUnlocked s).responses = s.responses := by
  unfold ensureUnlocked; split <;> simp
@[simp] theorem ensureUnlocked_pc (s : State) : (ensureUnlocked s).pc = s.pc := by
  unfold ensureUnlocked; split <;> simp
@[simp] theorem ensureUnlocked_requests (s : State) : (ensureUnlocked s).requests = s.requests := by
  unfold ensureUnlocked; split <;> simp
@[simp] theorem ensureUnlocked_inflight (s : State) : (ensureUnlocked s).inflight = s.inflight := by
  unfold ensureUnlocked; split <;> simp
@[simp] theorem ensureUnlocked_panel (s : State) : (ensureUnlocked s).panel = s.panel := by
  unfold ensureUnlocked; split <;> simp
@[simp] theorem ensureUnlocked_faultMark (s : State) : (ensureUnlocked s).faultMark = s.faultMark := by
  unfold ensureUnlocked; split <;> simp
@[simp] theorem ensureUnlocked_refusedMark (s : State) : (ensureUnlocked s).refusedMark = s.refusedMark := by
  unfold ensureUnlocked; split <;> simp

/-! ## Fields after the bus commands -/

@[simp] theorem softwareReset_cs (s : State) : (softwareReset s).cs = Controller.afterReset s.cfg.unlockClearedByReset s.cs := by
  simp [softwareReset]
@[simp] theorem softwareReset_cfg (s : State) : (softwareReset s).cfg = s.cfg := by
  simp [softwareReset]
@[simp] theorem softwareReset_fb (s : State) : (softwareReset s).fb = s.fb := by
  simp [softwareReset]
@[simp] theorem softwareReset_responses (s : State) : (softwareReset s).responses = s.responses := by
  simp [softwareReset]
@[simp] theorem softwareReset_pc (s : State) : (softwareReset s).pc = s.pc := by
  simp [softwareReset]
@[simp] theorem softwareReset_requests (s : State) : (softwareReset s).requests = s.requests := by
  simp [softwareReset]
@[simp] theorem softwareReset_inflight (s : State) : (softwareReset s).inflight = s.inflight := by
  simp [softwareReset]
@[simp] theorem softwareReset_panel (s : State) : (softwareReset s).panel = s.panel := by
  simp [softwareReset]
@[simp] theorem softwareReset_faultMark (s : State) : (softwareReset s).faultMark = s.faultMark := by
  simp [softwareReset]
@[simp] theorem softwareReset_refusedMark (s : State) : (softwareReset s).refusedMark = s.refusedMark := by
  simp [softwareReset]

@[simp] theorem hardwareReset_cs (s : State) : (hardwareReset s).cs = Controller.afterReset s.cfg.unlockClearedByReset s.cs := by
  simp [hardwareReset]
@[simp] theorem hardwareReset_cfg (s : State) : (hardwareReset s).cfg = s.cfg := by
  simp [hardwareReset]
@[simp] theorem hardwareReset_fb (s : State) : (hardwareReset s).fb = s.fb := by
  simp [hardwareReset]
@[simp] theorem hardwareReset_responses (s : State) : (hardwareReset s).responses = s.responses := by
  simp [hardwareReset]
@[simp] theorem hardwareReset_pc (s : State) : (hardwareReset s).pc = s.pc := by
  simp [hardwareReset]
@[simp] theorem hardwareReset_requests (s : State) : (hardwareReset s).requests = s.requests := by
  simp [hardwareReset]
@[simp] theorem hardwareReset_inflight (s : State) : (hardwareReset s).inflight = s.inflight := by
  simp [hardwareReset]
@[simp] theorem hardwareReset_panel (s : State) : (hardwareReset s).panel = s.panel := by
  simp [hardwareReset]
@[simp] theorem hardwareReset_faultMark (s : State) : (hardwareReset s).faultMark = s.faultMark := by
  simp [hardwareReset]
@[simp] theorem hardwareReset_refusedMark (s : State) : (hardwareReset s).refusedMark = s.refusedMark := by
  simp [hardwareReset]

@[simp] theorem sleepIn_cs (s : State) : (sleepIn s).cs = { s.cs with sleeping := some true } := by
  simp [sleepIn]
@[simp] theorem sleepIn_cfg (s : State) : (sleepIn s).cfg = s.cfg := by
  simp [sleepIn]
@[simp] theorem sleepIn_fb (s : State) : (sleepIn s).fb = s.fb := by
  simp [sleepIn]
@[simp] theorem sleepIn_responses (s : State) : (sleepIn s).responses = s.responses := by
  simp [sleepIn]
@[simp] theorem sleepIn_pc (s : State) : (sleepIn s).pc = s.pc := by
  simp [sleepIn]
@[simp] theorem sleepIn_requests (s : State) : (sleepIn s).requests = s.requests := by
  simp [sleepIn]
@[simp] theorem sleepIn_inflight (s : State) : (sleepIn s).inflight = s.inflight := by
  simp [sleepIn]
@[simp] theorem sleepIn_panel (s : State) : (sleepIn s).panel = s.panel := by
  simp [sleepIn]
@[simp] theorem sleepIn_faultMark (s : State) : (sleepIn s).faultMark = s.faultMark := by
  simp [sleepIn]
@[simp] theorem sleepIn_refusedMark (s : State) : (sleepIn s).refusedMark = s.refusedMark := by
  simp [sleepIn]

@[simp] theorem sleepOut_cs (s : State) : (sleepOut s).cs = { s.cs with sleeping := some false } := by
  simp [sleepOut]
@[simp] theorem sleepOut_cfg (s : State) : (sleepOut s).cfg = s.cfg := by
  simp [sleepOut]
@[simp] theorem sleepOut_fb (s : State) : (sleepOut s).fb = s.fb := by
  simp [sleepOut]
@[simp] theorem sleepOut_responses (s : State) : (sleepOut s).responses = s.responses := by
  simp [sleepOut]
@[simp] theorem sleepOut_pc (s : State) : (sleepOut s).pc = s.pc := by
  simp [sleepOut]
@[simp] theorem sleepOut_requests (s : State) : (sleepOut s).requests = s.requests := by
  simp [sleepOut]
@[simp] theorem sleepOut_inflight (s : State) : (sleepOut s).inflight = s.inflight := by
  simp [sleepOut]
@[simp] theorem sleepOut_panel (s : State) : (sleepOut s).panel = s.panel := by
  simp [sleepOut]
@[simp] theorem sleepOut_faultMark (s : State) : (sleepOut s).faultMark = s.faultMark := by
  simp [sleepOut]
@[simp] theorem sleepOut_refusedMark (s : State) : (sleepOut s).refusedMark = s.refusedMark := by
  simp [sleepOut]

@[simp] theorem displayOff_cs (op : Byte) (s : State) : (displayOff op s).cs = { s.cs with displayOn := some false } := by
  simp [displayOff]
@[simp] theorem displayOff_cfg (op : Byte) (s : State) : (displayOff op s).cfg = s.cfg := by
  simp [displayOff]
@[simp] theorem displayOff_fb (op : Byte) (s : State) : (displayOff op s).fb = s.fb := by
  simp [displayOff]
@[simp] theorem displayOff_responses (op : Byte) (s : State) : (displayOff op s).responses = s.responses := by
  simp [displayOff]
@[simp] theorem displayOff_pc (op : Byte) (s : State) : (displayOff op s).pc = s.pc := by
  simp [displayOff]
@[simp] theorem displayOff_requests (op : Byte) (s : State) : (displayOff op s).requests = s.requests := by
  simp [displayOff]
@[simp] theorem displayOff_inflight (op : Byte) (s : State) : (displayOff op s).inflight = s.inflight := by
  simp [displayOff]
@[simp] theorem displayOff_panel (op : Byte) (s : State) : (displayOff op s).panel = s.panel := by
  simp [displayOff]
@[simp] theorem displayOff_faultMark (op : Byte) (s : State) : (displayOff op s).faultMark = s.faultMark := by
  simp [displayOff]
@[simp] theorem displayOff_refusedMark (op : Byte) (s : State) : (displayOff op s).refusedMark = s.refusedMark := by
  simp [displayOff]

@[simp] theorem displayOn_cs (s : State) : (displayOn s).cs = { s.cs with displayOn := some true } := by
  simp [displayOn]
@[simp] theorem displayOn_cfg (s : State) : (displayOn s).cfg = s.cfg := by
  simp [displayOn]
@[simp] theorem displayOn_fb (s : State) : (displayOn s).fb = s.fb := by
  simp [displayOn]
@[simp] theorem displayOn_responses (s : State) : (displayOn s).responses = s.responses := by
  simp [displayOn]
@[simp] theorem displayOn_pc (s : State) : (displayOn s).pc = s.pc := by
  simp [displayOn]
@[simp] theorem displayOn_requests (s : State) : (displayOn s).requests = s.requests := by
  simp [displayOn]
@[simp] theorem displayOn_inflight (s : State) : (displayOn s).inflight = s.inflight := by
  simp [displayOn]
@[simp] theorem displayOn_panel (s : State) : (displayOn s).panel = s.panel := by
  simp [displayOn]
@[simp] theorem displayOn_faultMark (s : State) : (displayOn s).faultMark = s.faultMark := by
  simp [displayOn]
@[simp] theorem displayOn_refusedMark (s : State) : (displayOn s).refusedMark = s.refusedMark := by
  simp [displayOn]

@[simp] theorem writeWindow_cs (axis : Axis) (a b : Half) (s : State) : (writeWindow axis a b s).cs = s.cs.withWindow axis a b := by
  simp [writeWindow]
@[simp] theorem writeWindow_cfg (axis : Axis) (a b : Half) (s : State) : (writeWindow axis a b s).cfg = s.cfg := by
  simp [writeWindow]
@[simp] theorem writeWindow_fb (axis : Axis) (a b : Half) (s : State) : (writeWindow axis a b s).fb = s.fb := by
  simp [writeWindow]
@[simp] theorem writeWindow_responses (axis : Axis) (a b : Half) (s : State) : (writeWindow axis a b s).responses = s.responses := by
  simp [writeWindow]
@[simp] theorem writeWindow_pc (axis : Axis) (a b : Half) (s : State) : (writeWindow axis a b s).pc = s.pc := by
  simp [writeWindow]
@[simp] theorem writeWindow_requests (axis : Axis) (a b : Half) (s : State) : (writeWindow axis a b s).requests = s.requests := by
  simp [writeWindow]
@[simp] theorem writeWindow_inflight (axis : Axis) (a b : Half) (s : State) : (writeWindow axis a b s).inflight = s.inflight := by
  simp [writeWindow]
@[simp] theorem writeWindow_panel (axis : Axis) (a b : Half) (s : State) : (writeWindow axis a b s).panel = s.panel := by
  simp [writeWindow]
@[simp] theorem writeWindow_faultMark (axis : Axis) (a b : Half) (s : State) : (writeWindow axis a b s).faultMark = s.faultMark := by
  simp [writeWindow]
@[simp] theorem writeWindow_refusedMark (axis : Axis) (a b : Half) (s : State) : (writeWindow axis a b s).refusedMark = s.refusedMark := by
  simp [writeWindow]

@[simp] theorem writeFullWindow_cs (axis : Axis) (mv : Bool) (s : State) : (writeFullWindow axis mv s).cs = s.cs.withWindow axis 0 (BitVec.ofNat 16 (maxEnd s.cfg axis mv)) := by
  simp [writeFullWindow, writeWindow]
@[simp] theorem writeFullWindow_cfg (axis : Axis) (mv : Bool) (s : State) : (writeFullWindow axis mv s).cfg = s.cfg := by
  simp [writeFullWindow, writeWindow]
@[simp] theorem writeFullWindow_fb (axis : Axis) (mv : Bool) (s : State) : (writeFullWindow axis mv s).fb = s.fb := by
  simp [writeFullWindow, writeWindow]
@[simp] theorem writeFullWindow_responses (axis : Axis) (mv : Bool) (s : State) : (writeFullWindow axis mv s).responses = s.responses := by
  simp [writeFullWindow, writeWindow]
@[simp] theorem writeFullWindow_pc (axis : Axis) (mv : Bool) (s : State) : (writeFullWindow axis mv s).pc = s.pc := by
  simp [writeFullWindow, writeWindow]
@[simp] theorem writeFullWindow_requests (axis : Axis) (mv : Bool) (s : State) : (writeFullWindow axis mv s).requests = s.requests := by
  simp [writeFullWindow, writeWindow]
@[simp] theorem writeFullWindow_inflight (axis : Axis) (mv : Bool) (s : State) : (writeFullWindow axis mv s).inflight = s.inflight := by
  simp [writeFullWindow, writeWindow]
@[simp] theorem writeFullWindow_panel (axis : Axis) (mv : Bool) (s : State) : (writeFullWindow axis mv s).panel = s.panel := by
  simp [writeFullWindow, writeWindow]
@[simp] theorem writeFullWindow_faultMark (axis : Axis) (mv : Bool) (s : State) : (writeFullWindow axis mv s).faultMark = s.faultMark := by
  simp [writeFullWindow, writeWindow]
@[simp] theorem writeFullWindow_refusedMark (axis : Axis) (mv : Bool) (s : State) : (writeFullWindow axis mv s).refusedMark = s.refusedMark := by
  simp [writeFullWindow, writeWindow]

@[simp] theorem writeOrientation_cs (m : Byte) (s : State) : (writeOrientation m s).cs = s.cs.withOrientation (Orientation.ofByte m) := by
  simp [writeOrientation]
@[simp] theorem writeOrientation_cfg (m : Byte) (s : State) : (writeOrientation m s).cfg = s.cfg := by
  simp [writeOrientation]
@[simp] theorem writeOrientation_fb (m : Byte) (s : State) : (writeOrientation m s).fb = s.fb := by
  simp [writeOrientation]
@[simp] theorem writeOrientation_responses (m : Byte) (s : State) : (writeOrientation m s).responses = s.responses := by
  simp [writeOrientation]
@[simp] theorem writeOrientation_pc (m : Byte) (s : State) : (writeOrientation m s).pc = s.pc := by
  simp [writeOrientation]
@[simp] theorem writeOrientation_requests (m : Byte) (s : State) : (writeOrientation m s).requests = s.requests := by
  simp [writeOrientation]
@[simp] theorem writeOrientation_inflight (m : Byte) (s : State) : (writeOrientation m s).inflight = s.inflight := by
  simp [writeOrientation]
@[simp] theorem writeOrientation_panel (m : Byte) (s : State) : (writeOrientation m s).panel = s.panel := by
  simp [writeOrientation]
@[simp] theorem writeOrientation_faultMark (m : Byte) (s : State) : (writeOrientation m s).faultMark = s.faultMark := by
  simp [writeOrientation]
@[simp] theorem writeOrientation_refusedMark (m : Byte) (s : State) : (writeOrientation m s).refusedMark = s.refusedMark := by
  simp [writeOrientation]

@[simp] theorem idleOff_cs (s : State) : (idleOff s).cs = { s.cs with idle := some false } := by
  simp [idleOff]
@[simp] theorem idleOff_cfg (s : State) : (idleOff s).cfg = s.cfg := by
  simp [idleOff]
@[simp] theorem idleOff_fb (s : State) : (idleOff s).fb = s.fb := by
  simp [idleOff]
@[simp] theorem idleOff_responses (s : State) : (idleOff s).responses = s.responses := by
  simp [idleOff]
@[simp] theorem idleOff_pc (s : State) : (idleOff s).pc = s.pc := by
  simp [idleOff]
@[simp] theorem idleOff_requests (s : State) : (idleOff s).requests = s.requests := by
  simp [idleOff]
@[simp] theorem idleOff_inflight (s : State) : (idleOff s).inflight = s.inflight := by
  simp [idleOff]
@[simp] theorem idleOff_panel (s : State) : (idleOff s).panel = s.panel := by
  simp [idleOff]
@[simp] theorem idleOff_faultMark (s : State) : (idleOff s).faultMark = s.faultMark := by
  simp [idleOff]
@[simp] theorem idleOff_refusedMark (s : State) : (idleOff s).refusedMark = s.refusedMark := by
  simp [idleOff]

@[simp] theorem idleOn_cs (s : State) : (idleOn s).cs = { s.cs with idle := some true } := by
  simp [idleOn]
@[simp] theorem idleOn_cfg (s : State) : (idleOn s).cfg = s.cfg := by
  simp [idleOn]
@[simp] theorem idleOn_fb (s : State) : (idleOn s).fb = s.fb := by
  simp [idleOn]
@[simp] theorem idleOn_responses (s : State) : (idleOn s).responses = s.responses := by
  simp [idleOn]
@[simp] theorem idleOn_pc (s : State) : (idleOn s).pc = s.pc := by
  simp [idleOn]
@[simp] theorem idleOn_requests (s : State) : (idleOn s).requests = s.requests := by
  simp [idleOn]
@[simp] theorem idleOn_inflight (s : State) : (idleOn s).inflight = s.inflight := by
  simp [idleOn]
@[simp] theorem idleOn_panel (s : State) : (idleOn s).panel = s.panel := by
  simp [idleOn]
@[simp] theorem idleOn_faultMark (s : State) : (idleOn s).faultMark = s.faultMark := by
  simp [idleOn]
@[simp] theorem idleOn_refusedMark (s : State) : (idleOn s).refusedMark = s.refusedMark := by
  simp [idleOn]

@[simp] theorem setFormat16_cs (s : State) : (setFormat16 s).cs = { s.cs with pixfmt := some .format16 } := by
  simp [setFormat16]
@[simp] theorem setFormat16_cfg (s : State) : (setFormat16 s).cfg = s.cfg := by
  simp [setFormat16]
@[simp] theorem setFormat16_fb (s : State) : (setFormat16 s).fb = s.fb := by
  simp [setFormat16]
@[simp] theorem setFormat16_responses (s : State) : (setFormat16 s).responses = s.responses := by
  simp [setFormat16]
@[simp] theorem setFormat16_pc (s : State) : (setFormat16 s).pc = s.pc := by
  simp [setFormat16]
@[simp] theorem setFormat16_requests (s : State) : (setFormat16 s).requests = s.requests := by
  simp [setFormat16]
@[simp] theorem setFormat16_inflight (s : State) : (setFormat16 s).inflight = s.inflight := by
  simp [setFormat16]
@[simp] theorem setFormat16_panel (s : State) : (setFormat16 s).panel = s.panel := by
  simp [setFormat16]
@[simp] theorem setFormat16_faultMark (s : State) : (setFormat16 s).faultMark = s.faultMark := by
  simp [setFormat16]
@[simp] theorem setFormat16_refusedMark (s : State) : (setFormat16 s).refusedMark = s.refusedMark := by
  simp [setFormat16]

end Sys2Proof.Machine
end

