-- ==== Sys2Proof/Laws/Decode.lean ====
section
/-! SUPPORT. Taking a decoding apart: the parsers that succeed, and the row that was found. -/

namespace Sys2Proof

open Sys2Proof.Machine

theorem Parse.andThen_eq_some {α β : Type} (p : Parse α) (f : α → List Byte → Parse β) (y : β × List Byte) :
    p.andThen f = some y ↔ ∃ a rest, p = some (a, rest) ∧ f a rest = some y := by
  cases p with
  | none => simp [Parse.andThen]
  | some x => obtain ⟨a, rest⟩ := x; simp [Parse.andThen]

theorem Parse.as_eq_some {α β : Type} (p : Parse α) (f : α → β) (b : β) (rest : List Byte) :
    p.as f = some (b, rest) ↔ ∃ a, p = some (a, rest) ∧ f a = b := by
  cases p with
  | none => simp [Parse.as, Parse.andThen]
  | some x =>
    obtain ⟨a, r⟩ := x
    simp only [Parse.as, Parse.andThen, Option.some.injEq, Prod.mk.injEq]
    constructor
    · rintro ⟨rfl, rfl⟩; exact ⟨a, ⟨rfl, rfl⟩, rfl⟩
    · rintro ⟨_, ⟨rfl, rfl⟩, rfl⟩; exact ⟨rfl, rfl⟩

theorem takeByte_eq_some (bytes : List Byte) (a : Byte) (rest : List Byte) :
    takeByte bytes = some (a, rest) ↔ bytes = a :: rest := by
  cases bytes <;> simp [takeByte]

/-- A field read back gives the bytes it was read from. -/
theorem bytes_ofBytes_half (a b : Byte) : Half.bytes (Half.ofBytes a b) = [a, b] := by
  simp only [Half.bytes, Half.ofBytes, List.cons.injEq, and_true]
  constructor <;> (ext i hi; rw [BitVec.getElem_extractLsb', BitVec.getLsbD_append]; simp [hi])

theorem bytes_ofBytes_word (a b c d : Byte) : Word.bytes (Word.ofBytes a b c d) = [a, b, c, d] := by
  simp only [Word.bytes, Word.ofBytes, List.cons.injEq, and_true]
  refine ⟨?_, ?_, ?_, ?_⟩ <;>
    (ext i hi
     rw [BitVec.getElem_extractLsb', BitVec.getLsbD_append, BitVec.getLsbD_append, BitVec.getLsbD_append]
     interval_cases i <;> simp)

/-- The numbers that big-endian fields hold (30_encoding.md R82). -/
theorem fieldNat_half (a b : Byte) : fieldNat [a, b] = (Half.ofBytes a b).toNat := by
  have h : (Half.ofBytes a b).toNat = a.toNat <<< 8 ||| b.toNat := BitVec.toNat_append a b
  rw [h, ← Nat.shiftLeft_add_eq_or_of_lt b.isLt]
  simp [fieldNat, Nat.shiftLeft_eq]

theorem fieldNat_word (a b c d : Byte) : fieldNat [a, b, c, d] = (Word.ofBytes a b c d).toNat := by
  have h3 : (a ++ b).toNat = a.toNat <<< 8 ||| b.toNat := BitVec.toNat_append _ _
  have h2 : (a ++ b ++ c).toNat = (a ++ b).toNat <<< 8 ||| c.toNat := BitVec.toNat_append _ _
  have h1 : (Word.ofBytes a b c d).toNat = (a ++ b ++ c).toNat <<< 8 ||| d.toNat := BitVec.toNat_append _ _
  rw [h1, h2, h3, ← Nat.shiftLeft_add_eq_or_of_lt b.isLt, ← Nat.shiftLeft_add_eq_or_of_lt c.isLt,
    ← Nat.shiftLeft_add_eq_or_of_lt d.isLt]
  simp [Nat.shiftLeft_eq, fieldNat]

theorem takeHalf_eq_some (bytes : List Byte) (h : Half) (rest : List Byte) :
    takeHalf bytes = some (h, rest) ↔ bytes = Half.bytes h ++ rest := by
  constructor
  · intro k
    unfold takeHalf at k
    split at k
    · simp only [Option.some.injEq, Prod.mk.injEq] at k
      rw [← k.1, ← k.2, bytes_ofBytes_half]; rfl
    · cases k
  · rintro rfl; exact takeHalf_bytes h rest

theorem takeWord_eq_some (bytes : List Byte) (w : Word) (rest : List Byte) :
    takeWord bytes = some (w, rest) ↔ bytes = Word.bytes w ++ rest := by
  constructor
  · intro k
    unfold takeWord at k
    split at k
    · simp only [Option.some.injEq, Prod.mk.injEq] at k
      rw [← k.1, ← k.2, bytes_ofBytes_word]; rfl
    · cases k
  · rintro rfl; exact takeWord_bytes w rest

theorem takeList_eq_some (bytes l rest : List Byte) :
    takeList bytes = some (l, rest) ↔ bytes = listBytes l ++ rest ∧ listFits l = true := by
  constructor
  · intro k
    simp only [takeList, Parse.andThen_eq_some] at k
    obtain ⟨n, r, hn, h⟩ := k
    rw [takeWord_eq_some] at hn
    split at h
    next hl =>
      simp only [Option.some.injEq, Prod.mk.injEq] at h
      obtain ⟨h1, h2⟩ := h
      have hlen : l.length = n.toNat := by rw [← h1]; simp [hl]
      refine ⟨?_, ?_⟩
      · rw [hn, listBytes, hlen, List.append_assoc, ← h1, ← h2]
        simp
      · simp [listFits, hlen]; exact n.isLt
    · cases h
  · rintro ⟨rfl, h⟩; exact takeList_bytes l rest h

theorem takeMany_eq_some {α : Type} (take : List Byte → Parse α) (bytesOf : α → List Byte)
    (h : ∀ b a rest, take b = some (a, rest) ↔ b = bytesOf a ++ rest) (n : Nat) (bytes : List Byte) (l : List α)
    (rest : List Byte) :
    takeMany take n bytes = some (l, rest) ↔ bytes = l.flatMap bytesOf ++ rest ∧ l.length = n := by
  induction n generalizing bytes l with
  | zero =>
    simp only [takeMany, Option.some.injEq, Prod.mk.injEq]
    constructor
    · rintro ⟨rfl, rfl⟩; simp
    · rintro ⟨rfl, hl⟩; simp [List.length_eq_zero_iff.1 hl]
  | succ n ih =>
    simp only [takeMany, Parse.andThen_eq_some, Parse.as_eq_some, h, ih]
    constructor
    · rintro ⟨a, r, rfl, as, ⟨rfl, rfl⟩, rfl⟩; simp
    · rintro ⟨rfl, hl⟩
      cases l with
      | nil => simp at hl
      | cons a as => exact ⟨a, as.flatMap bytesOf ++ rest, by simp, as, ⟨rfl, by simpa using hl⟩, rfl⟩

theorem takeFlag_eq_some (bytes : List Byte) (b : Bool) (rest : List Byte) :
    takeFlag bytes = some (b, rest) ↔ bytes = flagByte b :: rest := by
  have key : ∀ f : Byte, f &&& 0xFE = 0 → flagByte (f.getLsbD 0) = f := by decide
  have hb : ∀ b, flagByte b &&& 0xFE = 0 ∧ (flagByte b).getLsbD 0 = b := by decide
  simp only [takeFlag, Parse.andThen_eq_some, takeByte_eq_some]
  constructor
  · rintro ⟨f, r, rfl, h⟩
    split at h
    next hf =>
      simp only [Option.some.injEq, Prod.mk.injEq] at h
      rw [← h.1, ← h.2, key f hf]
    · cases h
  · rintro rfl; exact ⟨_, _, rfl, by rw [if_pos (hb b).1, (hb b).2]⟩

theorem takeResetFlags_eq_some (bytes : List Byte) (x : Bool × Bool) (rest : List Byte) :
    takeResetFlags bytes = some (x, rest) ↔ bytes = resetFlagsByte x.1 x.2 :: rest := by
  have key : ∀ f : Byte, f &&& 0xFC = 0 → resetFlagsByte (f.getLsbD 0) (f.getLsbD 1) = f := by decide
  have hb : ∀ a b, resetFlagsByte a b &&& 0xFC = 0 ∧ (resetFlagsByte a b).getLsbD 0 = a ∧
      (resetFlagsByte a b).getLsbD 1 = b := by decide
  simp only [takeResetFlags, Parse.andThen_eq_some, takeByte_eq_some]
  constructor
  · rintro ⟨f, r, rfl, h⟩
    split at h
    next hf =>
      simp only [Option.some.injEq, Prod.mk.injEq] at h
      rw [← h.1, ← h.2, key f hf]
    · cases h
  · rintro rfl; exact ⟨_, _, rfl, by rw [if_pos (hb _ _).1, (hb _ _).2.1, (hb _ _).2.2]⟩

theorem takeAxis_eq_some (bytes : List Byte) (axis : Axis) (rest : List Byte) :
    takeAxis bytes = some (axis, rest) ↔ bytes = axis.byte :: rest := by
  simp only [takeAxis, Parse.andThen_eq_some, takeByte_eq_some]
  constructor
  · rintro ⟨a, r, rfl, h⟩
    split at h
    next ha => simp only [Option.some.injEq, Prod.mk.injEq] at h; rw [← h.1, ← h.2, ha]; rfl
    · split at h
      next ha => simp only [Option.some.injEq, Prod.mk.injEq] at h; rw [← h.1, ← h.2, ha]; rfl
      · cases h
  · rintro rfl; exact ⟨_, _, rfl, by cases axis <;> rfl⟩

theorem takeOrientation_eq_some (bytes : List Byte) (o : Orientation) (rest : List Byte) :
    takeOrientation bytes = some (o, rest) ↔ bytes = o.byte :: rest := by
  have key : ∀ m : Byte, m &&& 0x03 = 0 → (Orientation.ofByte m).byte = m := by decide
  have hb : ∀ o : Orientation, o.byte &&& 0x03 = 0 ∧ Orientation.ofByte o.byte = o := by
    rintro ⟨a, b, c, d, e, f⟩; revert a b c d e f; decide
  simp only [takeOrientation, Parse.andThen_eq_some, takeByte_eq_some]
  constructor
  · rintro ⟨f, r, rfl, h⟩
    split at h
    next hf =>
      simp only [Option.some.injEq, Prod.mk.injEq] at h
      rw [← h.1, ← h.2, key f hf]
    · cases h
  · rintro rfl; exact ⟨_, _, rfl, by rw [if_pos (hb o).1, (hb o).2]⟩

/-- What decodes was read by a row of the table whose op code the bytes begin with. -/
theorem decodeRows_eq_some {rows : List Row} {bytes : List Byte} {x : Instr × List Byte}
    (h : decodeRows rows bytes = some x) :
    ∃ op rest parse, bytes = op :: rest ∧ (op, parse) ∈ rows ∧ parse rest = some x := by
  unfold decodeRows at h
  split at h
  next op rest =>
    split at h
    next parse hp =>
      obtain ⟨l, r, hl, -⟩ := List.lookup_eq_some_iff.1 hp
      exact ⟨op, rest, parse, rfl, by rw [hl]; simp, h⟩
    · cases h
  · cases h

/-- Every row of the request table reads host operations (30_encoding.md R80). -/
theorem isHostOp_of_row (row : Row) (hm : row ∈ requestRows) (bytes rest : List Byte) (i : Instr)
    (h : row.2 bytes = some (i, rest)) : isHostOp i = true := by
  revert row
  simp only [requestRows, List.cons_append, List.nil_append, List.forall_mem_cons, takeBlit, Parse.andThen_eq_some,
    Parse.as_eq_some, Option.some.injEq, Prod.mk.injEq]
  and_intros
  all_goals grind [isHostOp, encode]

/-- What decodes as a request is a host operation. -/
theorem isHostOp_of_decodeRequest {bytes : List Byte} {i : Instr} (h : decodeRequest bytes = some i) :
    isHostOp i = true := by
  simp only [decodeRequest, Option.map_eq_some_iff] at h
  obtain ⟨⟨_, after⟩, h, rfl⟩ := h
  obtain ⟨op, rest, parse, -, hm, hp⟩ := decodeRows_eq_some h
  exact isHostOp_of_row _ hm rest after _ hp

end Sys2Proof
end

