-- ==== Sys2Proof/Laws/Exec.lean ====
section
/-! SUPPORT. What `exec` can do, said once: a next state is reached by a chain of the pieces below, whatever the
instruction. An invariant that every piece keeps is kept by every step. -/

namespace Sys2Proof.Machine

/-- The instructions that read the panel's status, and write the orientation fields from it (30_encoding.md R103). -/
def readsStatus : Instr → Bool
  | .setorient _ _ => true
  | .rdstatus => true
  | .cmd09 => true
  | _ => false

/-- One piece of an effect: a bus command with the state it tracks, an untracked frame, a delay, a write to the
framebuffer or to the phase, the response. `host` says that a host operation, and no bus command, is running, `reads`
that it reads the panel's status. -/
inductive Piece (host reads : Bool) (s : State) : State → Prop
  | softwareReset : Piece host reads s (softwareReset s)
  | hardwareReset (hh : host = true) : Piece host reads s (hardwareReset s)
  | sleepIn : Piece host reads s (sleepIn s)
  | sleepOut : Piece host reads s (sleepOut s)
  | displayOff (op : Byte) (h : op = 0x28 ∨ op = s.cfg.displayOffOpcode) : Piece host reads s (displayOff op s)
  | displayOn : Piece host reads s (displayOn s)
  | window (axis : Axis) (a b : Half) (h : host = true → s.cfg.wf = true → a.toNat < b.toNat) :
    Piece host reads s (writeWindow axis a b s)
  | orientation (m : Byte) : Piece host reads s (writeOrientation m s)
  | idleOff : Piece host reads s (idleOff s)
  | idleOn : Piece host reads s (idleOn s)
  | format : Piece host reads s (setFormat16 s)
  | status (hr : reads = true) : Piece host reads s (readStatus s).2
  | unlock (hh : host = true) : Piece host reads s (ensureUnlocked s)
  | write (op : Byte) (ps : List Byte) (h : op ∉ trackedOpcodes) : Piece host reads s (frameWrite op ps s)
  | read (op : Byte) (n : Nat) (h : op ∉ trackedOpcodes) : Piece host reads s (frameRead op n s).2
  | fb (m : Memory) (hh : host = true) (hw : s.fb.wf = true → m.wf = true)
    (hi : (∀ c ∈ s.fb, c.1 < s.cfg.cells) → ∀ c ∈ m, c.1 < s.cfg.cells) : Piece host reads s (s.setFb m)
  | configured (hh : host = true) : Piece host reads s (s.modifyCs fun cs => { cs with phase := .configured })
  | response (r : Response) (hh : host = true) : Piece host reads s (respond r s)

/-- A chain of pieces. -/
inductive Pieces (host reads : Bool) (s : State) : State → Prop
  | refl : Pieces host reads s s
  | tail {t u : State} (h : Pieces host reads s t) (k : Piece host reads t u) : Pieces host reads s u

/-- What every piece keeps, a chain keeps. -/
theorem Pieces.keeps {host reads : Bool} {s t : State} (h : Pieces host reads s t) (P : State → Prop)
    (k : ∀ a b, P a → Piece host reads a b → P b) (hs : P s) : P t := by
  induction h with
  | refl => exact hs
  | tail _ p ih => exact k _ _ ih p

/-- Under legal parameters a full window is ordered. -/
theorem full_window_ordered (cfg : Config) (axis : Axis) (mv : Bool) (h : cfg.wf = true) :
    (0 : Half).toNat < (BitVec.ofNat 16 (maxEnd cfg axis mv)).toNat := by
  simp only [Config.wf, Bool.and_eq_true, decide_eq_true_eq] at h
  obtain ⟨⟨⟨⟨⟨⟨h1, h2⟩, h3⟩, h4⟩, -⟩, -⟩, -⟩ := h
  cases axis <;> cases mv <;> simp only [maxEnd, extent] <;> split at h2 <;> split at h4 <;> simp_all <;> omega

/-- The bounds a legal SETWIN sends are ordered. -/
theorem legal_window_ordered (a b : Int) (h : windowLegal a b = true) :
    (BitVec.ofInt 16 a).toNat < (BitVec.ofInt 16 b).toNat := by
  simp only [windowLegal, Bool.and_eq_true, decide_eq_true_eq] at h
  simp only [BitVec.toNat_ofInt]
  omega

/-- A BLIT's writes lie in the buffer (43_framebuffer.md R221). -/
theorem blitWrites_inside (cfg : Config) (mv : Bool) (sw sh : Nat) (x y : Int) (src : List Pixel)
    (w : Nat × Pixel) (h : w ∈ blitWrites (fbDims cfg mv) sw sh x y src) : w.1 < cfg.cells := by
  simp only [blitWrites, List.mem_flatMap, List.mem_range, List.mem_filterMap, blitIndex] at h
  obtain ⟨sy, -, sx, -, h⟩ := h
  split at h
  next i v hi hv =>
    split at hi
    next hc =>
      simp only [Option.some.injEq] at h hi
      subst h hi
      obtain ⟨h1, h2, h3, h4⟩ := hc
      have hw : (fbDims cfg mv).2 * (fbDims cfg mv).1 = cfg.cells := by
        cases mv <;> simp [fbDims, Config.cells, Nat.mul_comm]
      have := Nat.mul_le_mul_right (fbDims cfg mv).1 (show (y + sy).toNat + 1 ≤ (fbDims cfg mv).2 by omega)
      rw [hw, Nat.add_mul] at this
      simp only
      omega
    next => cases hi
  next => cases h

/-- Everything `exec` can do. -/
theorem exec_pieces {i : Instr} {s t : State} (h : exec i s = .next t) : Pieces (isHostOp i) (readsStatus i) s t := by
  have one : ∀ {b c : Bool} {u v : State}, Piece b c u v → Pieces b c u v := fun p => .tail .refl p
  cases i with
  | reset hw sw =>
    cases h
    refine .tail ?_ (.response _ rfl)
    cases hw <;> cases sw
    · exact .refl
    · exact one .softwareReset
    · exact one (.hardwareReset rfl)
    · exact .tail (one (.hardwareReset rfl)) .softwareReset
  | wrcmd op ps =>
    simp only [exec, execWrcmd] at h
    split at h
    · cases h
    next hn => cases h; exact .tail (one (.write op ps hn)) (.response _ rfl)
  | rdreg op n =>
    simp only [exec, execRdreg] at h
    split at h
    · cases h
    next hn => cases h; exact .tail (one (.read op n.toNat hn)) (.response _ rfl)
  | init =>
    cases h
    refine .tail (.tail (.tail (.tail (.tail (.tail ?_ (.write 0xA3 [0x00] (by decide))) .idleOff) .sleepOut)
      .displayOn) (.configured rfl)) (.response _ rfl)
    have h : Pieces true false s _ := .tail (.tail (.tail (.tail (.tail (one (.hardwareReset rfl)) .format)
      (.write 0x13 [] (by decide))) (.window .col 0 _ fun _ hc => full_window_ordered _ .col false hc))
      (.window .row 0 _ fun _ hc => full_window_ordered _ .row false hc)) (.orientation s.cfg.orientDefault)
    cases s.cfg.initUnlocks
    · exact h
    · exact .tail h (.unlock rfl)
  | setpixfmt fmt =>
    simp only [exec, execSetpixfmt] at h
    split at h <;> cases h
    · exact .tail (one .format) (.response _ rfl)
    · exact one (.response _ rfl)
  | setwin axis start stop =>
    simp only [exec, execSetwin] at h
    split at h
    · cases h
    · split at h <;> cases h
      next hl =>
        exact .tail (one (.window _ _ _ fun _ _ => legal_window_ordered _ _ hl)) (.response _ rfl)
      next => exact one (.response _ rfl)
  | setorient preset keepWindow =>
    simp only [exec, execSetorient] at h
    split at h
    · cases h; exact one (.response _ rfl)
    · cases h
      refine .tail ?_ (.response _ rfl)
      split
      · exact .tail (one (.status rfl)) (.orientation _)
      · exact .tail (.tail (.tail (one (.status rfl)) (.orientation _))
          (.window .col 0 _ fun _ hc => full_window_ordered _ .col _ hc))
          (.window .row 0 _ fun _ hc => full_window_ordered _ .row _ hc)
  | setframerate value =>
    simp only [exec, execSetframerate] at h
    split at h <;> cases h
    · exact .tail (.tail (one (.unlock rfl)) (.write _ _ (by decide))) (.response _ rfl)
    · exact .tail (one (.unlock rfl)) (.response _ rfl)
  | setgamma coeffs =>
    simp only [exec, execSetgamma] at h
    split at h <;> cases h
    · exact .tail (one (.unlock rfl)) (.response _ rfl)
    · exact .tail (.tail (.tail (one (.unlock rfl)) (.write _ _ (by decide))) (.write _ _ (by decide))) (.response _ rfl)
  | setinvctl mode colorfix =>
    simp only [exec, execSetinvctl] at h
    split at h <;> cases h
    · exact .tail (one (.unlock rfl)) (.response _ rfl)
    · exact .tail (.tail (one (.unlock rfl)) (.write _ _ (by decide))) (.response _ rfl)
  | rdstatus => cases h; exact .tail (one (.status rfl)) (.response _ rfl)
  | wrpixels bytes =>
    simp only [exec, execWrpixels] at h
    split at h
    · cases h
    · split at h <;> cases h
      · exact .tail (one (.write _ _ (by decide))) (.response _ rfl)
      · exact one (.response _ rfl)
  | sleep on =>
    cases h
    cases on
    · exact .tail (one .sleepOut) (.response _ rfl)
    · exact .tail (one .sleepIn) (.response _ rfl)
  | display on =>
    cases h
    cases on
    · exact .tail (one (.displayOff _ (.inr rfl))) (.response _ rfl)
    · exact .tail (one .displayOn) (.response _ rfl)
  | idle on =>
    cases h
    cases on
    · exact .tail (one .idleOff) (.response _ rfl)
    · exact .tail (one .idleOn) (.response _ rfl)
  | encode r g b =>
    simp only [exec, execEncode] at h
    split at h <;> cases h
    exact one (.response _ rfl)
  | blit sw sh x y src =>
    simp only [exec, execBlit] at h
    split at h
    · cases h
    next mv hm =>
      split at h <;> cases h
      refine .tail (one (.fb _ rfl (wf_writeAll _ _) fun hi c hc => ?_)) (.response _ rfl)
      rcases mem_writeAll _ _ _ hc with ⟨w, hw, he⟩ | hc
      · exact he ▸ blitWrites_inside _ _ _ _ _ _ _ _ hw
      · exact hi c hc
  | fill color =>
    cases h
    exact .tail (one (.fb _ rfl (fun _ => wf_filled _ _) fun _ => mem_filled _ _)) (.response _ rfl)
  | flush =>
    simp only [exec, execFlush] at h
    split at h
    · cases h
    · split at h <;> cases h
      exact .tail (one (.write _ _ (by decide))) (.response _ rfl)
  | cmd01 => cases h; exact one .softwareReset
  | cmd09 => cases h; exact one (.status rfl)
  | cmd10 => cases h; exact one .sleepIn
  | cmd11 => cases h; exact one .sleepOut
  | cmd28 => cases h; exact one (.displayOff _ (.inl rfl))
  | cmd29 => cases h; exact one .displayOn
  | cmd2A a b => cases h; exact one (.window _ _ _ fun hh => by cases hh)
  | cmd2B a b => cases h; exact one (.window _ _ _ fun hh => by cases hh)
  | cmd36 o => cases h; exact one (.orientation _)
  | cmd38 => cases h; exact one .idleOff
  | cmd39 => cases h; exact one .idleOn
  | cmd3A => cases h; exact one .format
  | cmd00 | cmd04 | cmdDA | cmdDB | cmdDC => cases h; exact one (.read _ _ (by decide))
  | cmd12 | cmd13 | cmd2C | cmd30 | cmdA3 | cmdB4 | cmdB6 | cmdEF | cmdF0 | cmdF1 | cmdFE =>
    cases h; exact one (.write _ _ (by decide))

/-- Every piece emits its events; it leaves the configuration, the host's list and the marks alone. -/
theorem Piece.emitted {host reads : Bool} {s t : State} (h : Piece host reads s t) : ∃ es, Emitted s t es := by
  cases h with
  | softwareReset => exact ⟨_, softwareReset_emitted s⟩
  | hardwareReset => exact ⟨_, hardwareReset_emitted s⟩
  | sleepIn => exact ⟨_, sleepIn_emitted s⟩
  | sleepOut => exact ⟨_, sleepOut_emitted s⟩
  | displayOff => exact ⟨_, displayOff_emitted _ s⟩
  | displayOn => exact ⟨_, displayOn_emitted s⟩
  | window => exact ⟨_, writeWindow_emitted _ _ _ s⟩
  | orientation => exact ⟨_, writeOrientation_emitted _ s⟩
  | idleOff => exact ⟨_, idleOff_emitted s⟩
  | idleOn => exact ⟨_, idleOn_emitted s⟩
  | format => exact ⟨_, setFormat16_emitted s⟩
  | status => obtain ⟨d, b0, b1, b2, b3, -, -, he, -⟩ := readStatus_draws s; exact ⟨_, he⟩
  | unlock => exact ⟨_, ensureUnlocked_emitted s⟩
  | write => exact ⟨_, frameWrite_emitted _ _ s⟩
  | read => exact ⟨_, frameRead_emitted _ _ s⟩
  | fb => exact ⟨[], ⟨by simp, id, rfl, rfl, rfl, rfl, rfl⟩⟩
  | configured => exact ⟨[], ⟨by simp, id, rfl, rfl, rfl, rfl, rfl⟩⟩
  | response => exact ⟨[], ⟨by simp, id, rfl, rfl, rfl, rfl, rfl⟩⟩

theorem Pieces.emitted {host reads : Bool} {s t : State} (h : Pieces host reads s t) : ∃ es, Emitted s t es := by
  induction h with
  | refl => exact ⟨_, Emitted.refl s⟩
  | tail _ p ih =>
    obtain ⟨as, ha⟩ := ih
    obtain ⟨bs, hb⟩ := p.emitted
    exact ⟨_, ha.trans hb⟩

/-- A step that answers a next state waits, or runs an instruction from the state with its message taken. -/
theorem step_next {s t : State} (h : step s = .next t) :
    s.faultMark = none ∧ s.refusedMark = false ∧
      ((t = s ∧ s.inflight = none ∧ s.requests = []) ∨
        ∃ m i, s.pending = some m ∧ decode m = some i ∧ exec i (s.take m) = .next t) := by
  unfold step at h
  split at h
  · cases h
  next hf =>
    split at h
    · cases h
    next hr =>
      refine ⟨hf, by simpa using hr, ?_⟩
      split at h
      next hp =>
        cases h
        refine .inl ⟨rfl, ?_⟩
        unfold State.pending at hp
        split at hp
        · cases hp
        · cases hp
        · constructor <;> assumption
      next m hp =>
        split at h
        next i hd => exact .inr ⟨m, i, hp, hd, h⟩
        · cases h

end Sys2Proof.Machine
end

