-- ==== Sys2Proof/Laws/PerInstr.lean ====
section
/-! SUPPORT. Statements about every instruction as syntax, one lemma for each. -/

namespace Sys2Proof.Laws.EncodedLength

open Sys2Proof

def bytesOf : Message → List Byte
  | .request bytes => bytes
  | .command bytes => bytes

/-- The length of the layout of a row, written from 30_encoding.md R81 for a request, and from log 6 for a bus command. -/
def layoutLength : Instr → Nat
  | .reset _ _ => 2
  | .wrcmd _ params => 6 + params.length
  | .rdreg _ _ => 6
  | .init => 1
  | .setpixfmt _ => 2
  | .setwin _ _ _ => 10
  | .setorient _ _ => 3
  | .setframerate _ => 5
  | .setgamma _ => 117
  | .setinvctl _ _ => 9
  | .rdstatus => 1
  | .wrpixels bytes => 5 + bytes.length
  | .sleep _ => 2
  | .display _ => 2
  | .idle _ => 2
  | .encode _ _ _ => 4
  | .blit sw sh _ _ _ => 9 + 2 * (sw.toNat * sh.toNat)
  | .fill _ => 3
  | .flush => 1
  | .cmd00 _ => 5
  | .cmd01 => 1
  | .cmd04 _ => 5
  | .cmd09 => 1
  | .cmd10 => 1
  | .cmd11 => 1
  | .cmd12 params => 5 + params.length
  | .cmd13 => 1
  | .cmd28 => 1
  | .cmd29 => 1
  | .cmd2A _ _ => 5
  | .cmd2B _ _ => 5
  | .cmd2C bytes => 5 + bytes.length
  | .cmd30 params => 5 + params.length
  | .cmd36 _ => 2
  | .cmd38 => 1
  | .cmd39 => 1
  | .cmd3A => 1
  | .cmdA3 _ => 2
  | .cmdB4 params => 5 + params.length
  | .cmdB6 => 1
  | .cmdDA _ => 5
  | .cmdDB _ => 5
  | .cmdDC _ => 5
  | .cmdEF => 1
  | .cmdF0 params => 5 + params.length
  | .cmdF1 params => 5 + params.length
  | .cmdFE => 1

/-- The bytes of a well-formed instruction are as many as its layout has. -/
def Statement (i : Instr) : Prop := i.wf = true → (bytesOf (Sys2Proof.encode i)).length = layoutLength i

theorem length_halves (l : List Pixel) : (l.flatMap Half.bytes).length = 2 * l.length := by
  induction l with
  | nil => rfl
  | cons a l ih => simp only [List.flatMap_cons, List.length_append, ih, List.length_cons, Half.bytes]; simp; omega

theorem length_words (l : List Word) : (l.flatMap Word.bytes).length = 4 * l.length := by
  induction l with
  | nil => rfl
  | cons a l ih => simp only [List.flatMap_cons, List.length_append, ih, List.length_cons, Word.bytes]; simp; omega

theorem reset (hw sw : Bool) : Statement (.reset hw sw) := fun _ => rfl
theorem wrcmd (opcode : Byte) (params : List Byte) : Statement (.wrcmd opcode params) := fun _ => by
  simp [Sys2Proof.encode, bytesOf, layoutLength, listBytes, Word.bytes]; omega
theorem rdreg (opcode : Byte) (count : Word) : Statement (.rdreg opcode count) := fun _ => rfl
theorem init : Statement (.init) := fun _ => rfl
theorem setpixfmt (fmt : Byte) : Statement (.setpixfmt fmt) := fun _ => rfl
theorem setwin (axis : Axis) (start stop : Word) : Statement (.setwin axis start stop) := fun _ => rfl
theorem setorient (preset : Byte) (keepWindow : Bool) : Statement (.setorient preset keepWindow) := fun _ => rfl
theorem setframerate (value : Word) : Statement (.setframerate value) := fun _ => rfl
theorem setgamma (coeffs : List Word) : Statement (.setgamma coeffs) := fun h => by
  have h : coeffs.length = 29 := by simpa [Instr.wf] using h
  simp [Sys2Proof.encode, bytesOf, layoutLength, length_words, h, -List.length_flatMap]
theorem setinvctl (mode colorfix : Word) : Statement (.setinvctl mode colorfix) := fun _ => rfl
theorem rdstatus : Statement (.rdstatus) := fun _ => rfl
theorem wrpixels (bytes : List Byte) : Statement (.wrpixels bytes) := fun _ => by
  simp [Sys2Proof.encode, bytesOf, layoutLength, listBytes, Word.bytes]; omega
theorem sleep (on : Bool) : Statement (.sleep on) := fun _ => rfl
theorem display (on : Bool) : Statement (.display on) := fun _ => rfl
theorem idle (on : Bool) : Statement (.idle on) := fun _ => rfl
theorem encode (r g b : Byte) : Statement (.encode r g b) := fun _ => rfl
theorem blit (sw sh x y : Half) (src : List Pixel) : Statement (.blit sw sh x y src) := fun h => by
  have h : src.length = sw.toNat * sh.toNat := by simpa [Instr.wf] using h
  simp [Sys2Proof.encode, bytesOf, layoutLength, length_halves, h, Half.bytes, -List.length_flatMap]; omega
theorem fill (color : Pixel) : Statement (.fill color) := fun _ => rfl
theorem flush : Statement (.flush) := fun _ => rfl
theorem cmd00 (count : Word) : Statement (.cmd00 count) := fun _ => rfl
theorem cmd01 : Statement (.cmd01) := fun _ => rfl
theorem cmd04 (count : Word) : Statement (.cmd04 count) := fun _ => rfl
theorem cmd09 : Statement (.cmd09) := fun _ => rfl
theorem cmd10 : Statement (.cmd10) := fun _ => rfl
theorem cmd11 : Statement (.cmd11) := fun _ => rfl
theorem cmd12 (params : List Byte) : Statement (.cmd12 params) := fun _ => by
  simp [Sys2Proof.encode, bytesOf, layoutLength, listBytes, Word.bytes]; omega
theorem cmd13 : Statement (.cmd13) := fun _ => rfl
theorem cmd28 : Statement (.cmd28) := fun _ => rfl
theorem cmd29 : Statement (.cmd29) := fun _ => rfl
theorem cmd2A (start stop : Half) : Statement (.cmd2A start stop) := fun _ => rfl
theorem cmd2B (start stop : Half) : Statement (.cmd2B start stop) := fun _ => rfl
theorem cmd2C (bytes : List Byte) : Statement (.cmd2C bytes) := fun _ => by
  simp [Sys2Proof.encode, bytesOf, layoutLength, listBytes, Word.bytes]; omega
theorem cmd30 (params : List Byte) : Statement (.cmd30 params) := fun _ => by
  simp [Sys2Proof.encode, bytesOf, layoutLength, listBytes, Word.bytes]; omega
theorem cmd36 (orientation : Orientation) : Statement (.cmd36 orientation) := fun _ => rfl
theorem cmd38 : Statement (.cmd38) := fun _ => rfl
theorem cmd39 : Statement (.cmd39) := fun _ => rfl
theorem cmd3A : Statement (.cmd3A) := fun _ => rfl
theorem cmdA3 (value : Byte) : Statement (.cmdA3 value) := fun _ => rfl
theorem cmdB4 (params : List Byte) : Statement (.cmdB4 params) := fun _ => by
  simp [Sys2Proof.encode, bytesOf, layoutLength, listBytes, Word.bytes]; omega
theorem cmdB6 : Statement (.cmdB6) := fun _ => rfl
theorem cmdDA (count : Word) : Statement (.cmdDA count) := fun _ => rfl
theorem cmdDB (count : Word) : Statement (.cmdDB count) := fun _ => rfl
theorem cmdDC (count : Word) : Statement (.cmdDC count) := fun _ => rfl
theorem cmdEF : Statement (.cmdEF) := fun _ => rfl
theorem cmdF0 (params : List Byte) : Statement (.cmdF0 params) := fun _ => by
  simp [Sys2Proof.encode, bytesOf, layoutLength, listBytes, Word.bytes]; omega
theorem cmdF1 (params : List Byte) : Statement (.cmdF1 params) := fun _ => by
  simp [Sys2Proof.encode, bytesOf, layoutLength, listBytes, Word.bytes]; omega
theorem cmdFE : Statement (.cmdFE) := fun _ => rfl

end Sys2Proof.Laws.EncodedLength
end

