-- ==== Sys2Proof/Laws/Trace.lean ====
section
/-! SUPPORT. What a trace with one more frame says: its legality, and what a listener hears. -/

namespace Sys2Proof.Machine

/-! ## Legality (20_memory.md R64) -/

theorem traceLegal_append (p : Pins) (as bs : List Event) :
    traceLegal p (as ++ bs) = (traceLegal p as && traceLegal (levelsAfter p as) bs) := by
  induction as generalizing p with
  | nil => simp [traceLegal, levelsAfter]
  | cons a as ih => simp [traceLegal, levelsAfter_cons, ih, Bool.and_assoc]

theorem traceLegal_writes (bytes : List Byte) (p : Pins) (hc : p.csn = false) (hd : p.dir = .output) :
    traceLegal p (bytes.map .wr) = true := by
  induction bytes generalizing p with
  | nil => rfl
  | cons b bs ih =>
    simp only [List.map_cons, traceLegal, eventLegal, hc, hd, Bool.not_false, decide_true, Bool.and_self, Bool.true_and]
    exact ih _ hc hd

theorem traceLegal_reads (bytes : List Byte) (p : Pins) (hc : p.csn = false) (hd : p.dir = .input) :
    traceLegal p (bytes.map .rd) = true := by
  induction bytes generalizing p with
  | nil => rfl
  | cons b bs ih =>
    simp only [List.map_cons, traceLegal, eventLegal, hc, hd, Bool.not_false, decide_true, Bool.and_self, Bool.true_and]
    exact ih _ hc hd

theorem traceLegal_writeFrame (p : Pins) (h : p.idle = true) (op : Byte) (params : List Byte) :
    traceLegal p (writeFrame op params) = true := by
  rw [idle_iff] at h
  rw [h, writeFrame, traceLegal_append, traceLegal_append, traceLegal_writes _ _ (by rfl) (by rfl),
    levelsAfter_append, levelsAfter_writes _ (by rfl)]
  simp [traceLegal, eventLegal, Pins.after]

theorem traceLegal_readFrame (p : Pins) (h : p.idle = true) (op : Byte) (bytes : List Byte) :
    traceLegal p (readFrame op bytes) = true := by
  rw [idle_iff] at h
  rw [h, readFrame, traceLegal_append, traceLegal_append, traceLegal_reads _ _ (by rfl) (by rfl),
    levelsAfter_append, levelsAfter_reads _ (by simp [levelsAfter, Pins.after])]
  simp [traceLegal, eventLegal, levelsAfter, Pins.after]

/-! ## The listener -/

theorem listen_append (as bs : List Event) : listen (as ++ bs) = bs.foldl Listener.hear (listen as) := by
  simp [listen]

theorem hear_writes (l : Listener) (h : l.dataPhase = true) (bytes : List Byte) :
    (bytes.map Event.wr).foldl Listener.hear l = { l with params := l.params ++ bytes } := by
  induction bytes generalizing l with
  | nil => simp
  | cons b bs ih =>
    simp only [List.map_cons, List.foldl_cons]
    rw [ih _ (by simp [Listener.hear, h])]
    simp [Listener.hear, h]

theorem hear_reads (l : Listener) (bytes : List Byte) : (bytes.map Event.rd).foldl Listener.hear l = l := by
  induction bytes generalizing l with
  | nil => simp
  | cons b bs ih => simpa [Listener.hear] using ih l

/-- A write frame is heard as one command with its parameters. -/
theorem hear_writeFrame (l : Listener) (op : Byte) (params : List Byte) :
    (writeFrame op params).foldl Listener.hear l = ⟨none, [], true, l.sent.frame op params⟩ := by
  rw [writeFrame, List.foldl_append, List.foldl_append, hear_writes _ (by simp [Listener.hear])]
  simp [Listener.hear]

/-- A read frame is heard as a command without parameters. -/
theorem hear_readFrame (l : Listener) (op : Byte) (bytes : List Byte) :
    (readFrame op bytes).foldl Listener.hear l = ⟨none, [], true, l.sent.frame op []⟩ := by
  rw [readFrame, List.foldl_append, List.foldl_append, hear_reads]
  simp [Listener.hear]

/-- A command that is not tracked changes nothing that was sent. -/
theorem frame_untracked (m : Sent) (op : Byte) (params : List Byte) (h : op ∉ trackedOpcodes) :
    m.frame op params = m := by
  simp [trackedOpcodes] at h
  simp [Sent.frame, h]

/-- The parameters of an address-set carry its bounds. -/
theorem bounds_windowParams (a b : Half) : Sent.bounds (windowParams a b) = some (a, b) := by
  have h1 := takeHalf_bytes a []
  have h2 := takeHalf_bytes b []
  simp only [takeHalf, Half.bytes, List.append_nil, Option.some.injEq, Prod.mk.injEq, and_true] at h1 h2
  simp [windowParams, Sent.bounds, Half.bytes, h1, h2]

end Sys2Proof.Machine
end

