-- ==== Sys2Proof/Tests/Slice0.lean ====
section
/-! SUPPORT. Tests: ill-formed terms, one written-out word for every constructor, one-step vectors of
95_test_vectors.md, and a witness for every statement's hypotheses. -/

namespace Sys2Proof.Tests

open Sys2Proof Sys2Proof.Machine

/-! ## The configuration and states of 95_test_vectors.md -/

/-- "Test configuration". -/
def testCfg : Config where
  panelW := 4
  panelH := 2
  pf16Code := 0x55
  frMask := 0xFF
  statusLayout := StatusLayout.default
  orientDefault := 0x00
  pixelByteOrder := .be
  endMaxInclusive := true
  unlockClearedByReset := false
  displayOffOpcode := 0x28
  initUnlocks := true

/-- "Power-on state". -/
def powerOn : State := { State.reset with cfg := testCfg }

/-- The Controller State at the end of program P1. -/
def csP1 : Controller where
  phase := .configured
  pixfmt := some .format16
  my := some false
  mx := some false
  mv := some false
  ml := some false
  bgr := some false
  mh := some false
  colStart := some 0
  colEnd := some 3
  rowStart := some 0
  rowEnd := some 1
  sleeping := some false
  idle := some false
  displayOn := some true
  inverted := none
  unlocked := true

/-- "After P1", with the trace and the responses taken away. -/
def afterP1 : State := { powerOn with cs := csP1 }

/-- A state with one request before it. -/
def asked (s : State) (request : List Byte) : State := { s with requests := [request] }

/-- A state with one bus command in its in-flight slot. -/
def issuing (s : State) (command : List Byte) : State := { s with inflight := some command }

/-- A state whose panel answers these bytes. -/
def answering (s : State) (panel : List Byte) : State := { s with panel := panel }

/-- What a step emitted and answered, from a state with an empty trace and no responses. -/
def seen (r : Result) : Option (List Event × List (List Byte)) :=
  match r with
  | .next t => some (t.trace, t.responses.map Response.bytes)
  | _ => none

/-- The Controller State a step leaves. -/
def left (r : Result) : Option Controller :=
  match r with
  | .next t => some t.cs
  | _ => none

/-- The framebuffer a step leaves. -/
def cells (r : Result) : Option Memory :=
  match r with
  | .next t => some t.fb
  | _ => none

def stop (r : Result) : Option (Fault ⊕ Refusal) :=
  match r with
  | .next _ => none
  | .fault f => some (.inl f)
  | .refused f => some (.inr f)

/-- `HWRST`. -/
def hwrst : List Event := [.rstLow, .delay 5, .rstHigh, .delay 15]

/-- `op [p0 p1 ...]`. -/
def w (op : Byte) (ps : List Byte) : List Event :=
  [.csAssert, .dcCmd, .wr op, .dcData] ++ ps.map Event.wr ++ [.csDeassert]

/-- `op <- d | b0 b1 ...`. -/
def r (op d : Byte) (bs : List Byte) : List Event :=
  [.csAssert, .dcCmd, .wr op, .dcData, .dirIn, .rd d] ++ bs.map Event.rd ++ [.dirOut, .csDeassert]

/-! ## Ill-formed terms (30_encoding.md R81, R84) -/

/-- A list whose length no u32 field carries. -/
def tooLong : List Byte := List.replicate (2 ^ 32) 0

theorem tooLong_length : tooLong.length = 2 ^ 32 := by unfold tooLong; exact List.length_replicate

theorem test_wf_refuses_wrcmd : (Instr.wf (.wrcmd 0x13 tooLong)) = false := by simp only [Instr.wf, listFits, tooLong_length]; rfl
theorem test_wf_refuses_wrpixels : (Instr.wf (.wrpixels tooLong)) = false := by simp only [Instr.wf, listFits, tooLong_length]; rfl
theorem test_wf_refuses_cmd12 : (Instr.wf (.cmd12 tooLong)) = false := by simp only [Instr.wf, listFits, tooLong_length]; rfl
theorem test_wf_refuses_cmd2C : (Instr.wf (.cmd2C tooLong)) = false := by simp only [Instr.wf, listFits, tooLong_length]; rfl
theorem test_wf_refuses_cmd30 : (Instr.wf (.cmd30 tooLong)) = false := by simp only [Instr.wf, listFits, tooLong_length]; rfl
theorem test_wf_refuses_cmdB4 : (Instr.wf (.cmdB4 tooLong)) = false := by simp only [Instr.wf, listFits, tooLong_length]; rfl
theorem test_wf_refuses_cmdF0 : (Instr.wf (.cmdF0 tooLong)) = false := by simp only [Instr.wf, listFits, tooLong_length]; rfl
theorem test_wf_refuses_cmdF1 : (Instr.wf (.cmdF1 tooLong)) = false := by simp only [Instr.wf, listFits, tooLong_length]; rfl
theorem test_wf_refuses_setgamma : (Instr.setgamma (List.replicate 28 0)).wf = false ∧ (Instr.setgamma (List.replicate 30 0)).wf = false := by decide
theorem test_wf_refuses_blit : (Instr.blit 2 2 0 0 [0x000A, 0x000B, 0x000C]).wf = false := by decide

/-! ## One word for every constructor, written out from R81 and R100 to R127 -/

theorem test_decode_reset : decodeRequest [0x01, 0x02] = some (.reset false true) := by decide
theorem test_decode_wrcmd : decodeRequest [0x02, 0xB6, 0x00, 0x00, 0x00, 0x01, 0x07] = some (.wrcmd 0xB6 [0x07]) := by decide
theorem test_decode_rdreg : decodeRequest [0x03, 0x04, 0x00, 0x00, 0x00, 0x03] = some (.rdreg 0x04 3) := by decide
theorem test_decode_init : decodeRequest [0x10] = some (.init) := by decide
theorem test_decode_setpixfmt : decodeRequest [0x11, 0xFF] = some (.setpixfmt 0xFF) := by decide
theorem test_decode_setwin : decodeRequest [0x12, 0x01, 0x00, 0x00, 0x12, 0x34, 0x00, 0x00, 0xFF, 0xFE] = some (.setwin .row 0x1234 0xFFFE) := by decide
theorem test_decode_setorient : decodeRequest [0x13, 0x04, 0x01] = some (.setorient 0x04 true) := by decide
theorem test_decode_setframerate : decodeRequest [0x14, 0x00, 0x00, 0x01, 0x02] = some (.setframerate 0x102) := by decide
theorem test_decode_setgamma : decodeRequest ([0x15, 0x00, 0x00, 0x00, 0x01, 0xFF, 0xFF, 0xFF, 0xFF] ++ List.replicate 104 0x00 ++ [0x00, 0x00, 0x02, 0x00]) = some (.setgamma ([1, 0xFFFFFFFF] ++ List.replicate 26 0 ++ [0x200])) := by decide
theorem test_decode_setinvctl : decodeRequest [0x16, 0x00, 0x00, 0x00, 0x04, 0x00, 0x00, 0x01, 0x00] = some (.setinvctl 4 0x100) := by decide
theorem test_decode_rdstatus : decodeRequest [0x17] = some (.rdstatus) := by decide
theorem test_decode_wrpixels : decodeRequest [0x18, 0x00, 0x00, 0x00, 0x02, 0xF8, 0x01] = some (.wrpixels [0xF8, 0x01]) := by decide
theorem test_decode_sleep : decodeRequest [0x19, 0x01] = some (.sleep true) := by decide
theorem test_decode_display : decodeRequest [0x1A, 0x00] = some (.display false) := by decide
theorem test_decode_idle : decodeRequest [0x1B, 0x01] = some (.idle true) := by decide
theorem test_decode_encode : decodeRequest [0x20, 0x12, 0x34, 0x56] = some (.encode 0x12 0x34 0x56) := by decide
theorem test_decode_blit : decodeRequest [0x30, 0x00, 0x02, 0x00, 0x01, 0xFF, 0xFF, 0x00, 0x03, 0x11, 0x12, 0x21, 0x22] = some (.blit 2 1 0xFFFF 3 [0x1112, 0x2122]) := by decide
theorem test_decode_fill : decodeRequest [0x31, 0x12, 0x34] = some (.fill 0x1234) := by decide
theorem test_decode_flush : decodeRequest [0x32] = some (.flush) := by decide
theorem test_decode_cmd00 : decodeCommand [0x00, 0x00, 0x00, 0x00, 0x04] = some (.cmd00 4) := by decide
theorem test_decode_cmd01 : decodeCommand [0x01] = some (.cmd01) := by decide
theorem test_decode_cmd04 : decodeCommand [0x04, 0x00, 0x00, 0x00, 0x03] = some (.cmd04 3) := by decide
theorem test_decode_cmd09 : decodeCommand [0x09] = some (.cmd09) := by decide
theorem test_decode_cmd10 : decodeCommand [0x10] = some (.cmd10) := by decide
theorem test_decode_cmd11 : decodeCommand [0x11] = some (.cmd11) := by decide
theorem test_decode_cmd12 : decodeCommand [0x12, 0x00, 0x00, 0x00, 0x01, 0x5A] = some (.cmd12 [0x5A]) := by decide
theorem test_decode_cmd13 : decodeCommand [0x13] = some (.cmd13) := by decide
theorem test_decode_cmd28 : decodeCommand [0x28] = some (.cmd28) := by decide
theorem test_decode_cmd29 : decodeCommand [0x29] = some (.cmd29) := by decide
theorem test_decode_cmd2A : decodeCommand [0x2A, 0x00, 0x12, 0x01, 0x34] = some (.cmd2A 0x0012 0x0134) := by decide
theorem test_decode_cmd2B : decodeCommand [0x2B, 0x12, 0x34, 0xFF, 0xFF] = some (.cmd2B 0x1234 0xFFFF) := by decide
theorem test_decode_cmd2C : decodeCommand [0x2C, 0x00, 0x00, 0x00, 0x02, 0xF8, 0x00] = some (.cmd2C [0xF8, 0x00]) := by decide
theorem test_decode_cmd30 : decodeCommand [0x30, 0x00, 0x00, 0x00, 0x02, 0x01, 0x02] = some (.cmd30 [0x01, 0x02]) := by decide
theorem test_decode_cmd36 : decodeCommand [0x36, 0xA4] = some (.cmd36 ⟨true, false, true, false, false, true⟩) := by decide
theorem test_decode_cmd38 : decodeCommand [0x38] = some (.cmd38) := by decide
theorem test_decode_cmd39 : decodeCommand [0x39] = some (.cmd39) := by decide
theorem test_decode_cmd3A : decodeCommand [0x3A] = some (.cmd3A) := by decide
theorem test_decode_cmdA3 : decodeCommand [0xA3, 0x1F] = some (.cmdA3 0x1F) := by decide
theorem test_decode_cmdB4 : decodeCommand [0xB4, 0x00, 0x00, 0x00, 0x02, 0x04, 0x00] = some (.cmdB4 [0x04, 0x00]) := by decide
theorem test_decode_cmdB6 : decodeCommand [0xB6] = some (.cmdB6) := by decide
theorem test_decode_cmdDA : decodeCommand [0xDA, 0x00, 0x00, 0x00, 0x01] = some (.cmdDA 1) := by decide
theorem test_decode_cmdDB : decodeCommand [0xDB, 0x00, 0x00, 0x01, 0x00] = some (.cmdDB 0x100) := by decide
theorem test_decode_cmdDC : decodeCommand [0xDC, 0x00, 0x00, 0x00, 0x02] = some (.cmdDC 2) := by decide
theorem test_decode_cmdEF : decodeCommand [0xEF] = some (.cmdEF) := by decide
theorem test_decode_cmdF0 : decodeCommand [0xF0, 0x00, 0x00, 0x00, 0x01, 0x33] = some (.cmdF0 [0x33]) := by decide
theorem test_decode_cmdF1 : decodeCommand [0xF1, 0x00, 0x00, 0x00, 0x01, 0x44] = some (.cmdF1 [0x44]) := by decide
theorem test_decode_cmdFE : decodeCommand [0xFE] = some (.cmdFE) := by decide

/-! ## What does not decode (V-E1 to V-E3, V-B5, V-B17, V-O5, V-W14, V-X13) -/

theorem test_undefined_requests : [[0x05], [0xFF], [0x12, 0x00, 0x00, 0x00, 0x00, 0x01], [0x01, 0x04], [0x02, 0x13, 0x00, 0x00, 0x00, 0x02, 0x01],
    [0x13, 0x00, 0x02], [0x12, 0x02, 0x00, 0x00, 0x00, 0x00, 0x00, 0x00, 0x00, 0x01], [0x19, 0x02], []].all
    (fun b => stop (step (asked powerOn b)) = some (.inr .badRequest)) = true := by decide
theorem test_undefined_commands : [[0x05], [0x36, 0x01], [0x2A, 0x00], []].all
    (fun b => stop (step (issuing powerOn b)) = some (.inr .badCommand)) = true := by decide
theorem test_table_words : decodeTableWord 8 0x17 = some .rdstatus ∧ decodeTableWord 8 0xA3 = some (.cmdA3 0) ∧
    decodeTableWord 16 0x0301 = some (.reset true true) ∧ decodeTableWord 8 0x05 = none := by decide
theorem test_fetch_word_runs : seen (step (State.reset.withFetchWord 8 0x38)) = some (w 0x38 [], []) ∧
    seen (step (State.reset.withFetchWord 16 0x0111)) = some ([], [[0x02]]) := by decide

/-! ## One step each: the vectors of 95_test_vectors.md -/

/-- V-B4, V-B1. -/
theorem test_reset : seen (step (asked afterP1 [0x01, 0x03])) = some (hwrst ++ w 0x01 [] ++ [.delay 5], [[0x00]]) ∧
    seen (step (asked afterP1 [0x01, 0x00])) = some ([], [[0x00]]) := by decide
/-- V-B3. -/
theorem test_reset_state : left (step (asked afterP1 [0x01, 0x02])) =
    some { Controller.reset with phase := .reset, unlocked := true } := by decide
/-- V-B8. -/
theorem test_wrcmd : seen (step (asked afterP1 [0x02, 0x77, 0x00, 0x00, 0x00, 0x02, 0x01, 0x02])) =
    some (w 0x77 [0x01, 0x02], [[0x00]]) := by decide
/-- V-B10, V-B11. -/
theorem test_wrcmd_raw : stop (step (asked afterP1 [0x02, 0x36, 0x00, 0x00, 0x00, 0x01, 0x00])) = some (.inr .rawStateful) ∧
    stop (step (asked afterP1 [0x02, 0x01, 0x00, 0x00, 0x00, 0x00])) = some (.inr .rawStateful) := by decide
/-- V-B13, V-B14. -/
theorem test_rdreg : seen (step (asked (answering afterP1 [0x5A, 0x11, 0x22, 0x33]) [0x03, 0x04, 0x00, 0x00, 0x00, 0x03])) =
      some (r 0x04 0x5A [0x11, 0x22, 0x33], [[0x00, 0x11, 0x22, 0x33]]) ∧
    seen (step (asked (answering afterP1 [0x9C]) [0x03, 0xDA, 0x00, 0x00, 0x00, 0x00])) =
      some (r 0xDA 0x9C [], [[0x00]]) := by decide
/-- V-B15, V-B16. -/
theorem test_rdreg_raw : left (step (asked (answering afterP1 [0x00, 0x20, 0x00, 0x00, 0x00]) [0x03, 0x09, 0x00, 0x00, 0x00, 0x04])) =
      some csP1 ∧
    stop (step (asked afterP1 [0x03, 0x2A, 0x00, 0x00, 0x00, 0x04])) = some (.inr .rawStateful) := by decide
/-- V-K1: program P1. -/
theorem test_init : seen (step (asked powerOn [0x10])) =
    some (hwrst ++ w 0x3A [0x55] ++ w 0x13 [] ++ w 0x2A [0x00, 0x00, 0x00, 0x03] ++ w 0x2B [0x00, 0x00, 0x00, 0x01] ++
      w 0x36 [0x00] ++ w 0xFE [] ++ w 0xEF [] ++ w 0xB6 [0x07] ++ w 0xA3 [0x00] ++ w 0x38 [] ++ w 0x11 [] ++
      [.delay 120] ++ w 0x29 [], [[0x00]]) := by decide
/-- V-K1, V-K3. -/
theorem test_init_state : left (step (asked powerOn [0x10])) = some csP1 ∧
    left (step (asked { powerOn with cfg := { testCfg with initUnlocks := false } } [0x10])) =
      some { csP1 with unlocked := false } := by decide
/-- V-K4, V-K6. -/
theorem test_setpixfmt : seen (step (asked powerOn [0x11, 0x00])) = some (w 0x3A [0x55], [[0x00]]) ∧
    seen (step (asked powerOn [0x11, 0xFF])) = some ([], [[0x02]]) := by decide
/-- V-W10: the row extent under MV = 1. -/
theorem test_setwin : seen (step (asked { afterP1 with cs := { csP1 with mv := some true } }
      [0x12, 0x01, 0x00, 0x00, 0x00, 0x01, 0xFF, 0xFF, 0xFF, 0xFF])) =
    some (w 0x2B [0x00, 0x01, 0x00, 0x03], [[0x00]]) := by decide
/-- V-W2, V-W3, V-W7, V-W11, V-W12. -/
theorem test_setwin_errors : seen (step (asked afterP1 [0x12, 0x01, 0x00, 0x00, 0x12, 0x34, 0x00, 0x00, 0xFF, 0xFF])) =
      some (w 0x2B [0x12, 0x34, 0xFF, 0xFF], [[0x00]]) ∧
    seen (step (asked afterP1 [0x12, 0x00, 0x00, 0x00, 0x00, 0x05, 0x00, 0x00, 0x00, 0x05])) = some ([], [[0x01]]) ∧
    seen (step (asked afterP1 [0x12, 0x00, 0xFF, 0xFF, 0xFF, 0xFF, 0x00, 0x00, 0x00, 0x03])) = some ([], [[0x01]]) ∧
    stop (step (asked powerOn [0x12, 0x00, 0x00, 0x00, 0x00, 0x00, 0xFF, 0xFF, 0xFF, 0xFF])) =
      some (.inl .unsetState) ∧
    seen (step (asked afterP1 [0x12, 0x01, 0x00, 0x00, 0x00, 0x01, 0x80, 0x00, 0x00, 0x00])) = some ([], [[0x01]]) := by decide
/-- V-O1. -/
theorem test_setorient : seen (step (asked (answering afterP1 [0x00, 0x0C, 0x53, 0x04, 0x00]) [0x13, 0x04, 0x00])) =
    some (r 0x09 0x00 [0x0C, 0x53, 0x04, 0x00] ++ w 0x36 [0x38] ++ w 0x2A [0x00, 0x00, 0x00, 0x01] ++
      w 0x2B [0x00, 0x00, 0x00, 0x03], [[0x00]]) := by decide
/-- V-O2, V-O6, V-O4. -/
theorem test_setorient_state : left (step (asked (answering afterP1 [0x00, 0x00, 0x00, 0x00, 0x00]) [0x13, 0x03, 0x01])) =
      some { csP1 with my := some true, mx := some true } ∧
    left (step (asked (answering afterP1 [0x00, 0x7E, 0x00, 0x00, 0x00]) [0x13, 0x00, 0x00])) =
      some { csP1 with ml := some true, bgr := some true, mh := some true } ∧
    seen (step (asked afterP1 [0x13, 0x08, 0x00])) = some ([], [[0x01]]) := by decide
/-- V-P1, V-P4. -/
theorem test_setframerate : seen (step (asked powerOn [0x14, 0x00, 0x00, 0x00, 0x00])) =
      some (w 0xFE [] ++ w 0xEF [] ++ w 0xB6 [0x07] ++ w 0xA3 [0x00], [[0x00]]) ∧
    seen (step (asked powerOn [0x14, 0x00, 0x00, 0x01, 0x00])) =
      some (w 0xFE [] ++ w 0xEF [] ++ w 0xB6 [0x07], [[0x01]]) := by decide
/-- V-P2, V-P5. -/
theorem test_setframerate_mask : seen (step (asked afterP1 [0x14, 0x00, 0x00, 0x00, 0x1F])) = some (w 0xA3 [0x1F], [[0x00]]) ∧
    seen (step (asked { afterP1 with cfg := { testCfg with frMask := 0x1F } } [0x14, 0x00, 0x00, 0x00, 0x20])) =
      some ([], [[0x01]]) := by decide
/-- V-P7, V-E6. -/
theorem test_setinvctl : seen (step (asked powerOn [0x16, 0x00, 0x00, 0x00, 0x05, 0x00, 0x00, 0x00, 0x00])) =
      some (w 0xFE [] ++ w 0xEF [] ++ w 0xB6 [0x07], [[0x01]]) := by decide
/-- V-O7. -/
theorem test_rdstatus : seen (step (asked (answering afterP1 [0x00, 0x20, 0x00, 0x00, 0x00]) [0x17])) =
      some (r 0x09 0x00 [0x20, 0x00, 0x00, 0x00], [[0x00, 0x20, 0x00, 0x00, 0x00]]) ∧
    left (step (asked (answering afterP1 [0x00, 0x20, 0x00, 0x00, 0x00]) [0x17])) =
      some { csP1 with mx := some true } := by decide
/-- V-O8. -/
theorem test_rdstatus_power_on : left (step (asked (answering powerOn [0x00, 0x10, 0x00, 0x00, 0x00]) [0x17])) =
    some { Controller.reset with
      my := some false, mx := some false, mv := some true, ml := some false, bgr := some false, mh := some false } := by decide
/-- 92_eei_decisions.md D13: the three positions the snapshot leaves out, and a pixel-format code at scattered ones. -/
theorem test_layout :
    statusModes StatusLayout.default 0x00050200 = ⟨true, true, true⟩ ∧
    statusModes StatusLayout.default 0xFFFAFDFF = ⟨false, false, false⟩ ∧
    (statusDecode { StatusLayout.default with pixfmt := [31, 0, 8] } 0x80000100).pixfmtCode = 5 := by decide
/-- V-X1, V-X3. -/
theorem test_wrpixels : seen (step (asked afterP1 [0x18, 0x00, 0x00, 0x00, 0x02, 0xF8, 0x00])) = some (w 0x2C [0xF8, 0x00], [[0x00]]) ∧
    seen (step (asked afterP1 [0x18, 0x00, 0x00, 0x00, 0x00])) = some (w 0x2C [], [[0x00]]) := by decide
/-- V-X2, V-X5. -/
theorem test_wrpixels_checks : seen (step (asked afterP1 [0x18, 0x00, 0x00, 0x00, 0x01, 0xF8])) = some ([], [[0x01]]) ∧
    stop (step (asked powerOn [0x18, 0x00, 0x00, 0x00, 0x01, 0xAA])) = some (.inl .unsetState) := by decide
/-- V-X6, V-X7. -/
theorem test_sleep : seen (step (asked afterP1 [0x19, 0x01])) = some (w 0x10 [], [[0x00]]) ∧
    left (step (asked afterP1 [0x19, 0x01])) = some { csP1 with sleeping := some true } ∧
    seen (step (asked afterP1 [0x19, 0x00])) = some (w 0x11 [] ++ [.delay 120], [[0x00]]) := by decide
/-- V-X8, V-X9. -/
theorem test_display : seen (step (asked afterP1 [0x1A, 0x00])) = some (w 0x28 [], [[0x00]]) ∧
    left (step (asked afterP1 [0x1A, 0x00])) = some { csP1 with displayOn := some false } ∧
    seen (step (asked powerOn [0x1A, 0x01])) = some (w 0x29 [], [[0x00]]) := by decide
/-- V-X10. -/
theorem test_display_off_opcode : seen (step (asked { afterP1 with cfg := { testCfg with displayOffOpcode := 0x29 } } [0x1A, 0x00])) =
    some (w 0x29 [], [[0x00]]) := by decide
/-- V-X11, V-X12. -/
theorem test_idle : seen (step (asked afterP1 [0x1B, 0x01])) = some (w 0x39 [], [[0x00]]) ∧
    left (step (asked afterP1 [0x1B, 0x01])) = some { csP1 with idle := some true } ∧
    seen (step (asked afterP1 [0x1B, 0x00])) = some (w 0x38 [], [[0x00]]) := by decide
/-- V-C19, V-C20. -/
theorem test_encode : seen (step (asked afterP1 [0x20, 0x12, 0x34, 0x56])) = some ([], [[0x00, 0xEE, 0x55]]) ∧
    stop (step (asked powerOn [0x20, 0x00, 0x00, 0x00])) = some (.inl .unsetState) := by decide
/-- V-C3, V-C5, V-C8, V-C10, V-C11, V-C13, V-C16 to V-C18. -/
theorem test_encode565 : encode565 0xFF 0x00 0x00 = 0x07FF ∧ encode565 0xFF 0x00 0xFF = 0x07E0 ∧ encode565 0x08 0xFF 0xFF = 0xF000 ∧
    encode565 0x80 0x80 0x80 = 0x7BEF ∧ encode565 0x7F 0x7F 0x7F = 0x8410 ∧ encode565 0x04 0x04 0x04 = 0xFFDF ∧
    encode565 0xFF 0xFF 0xF7 = 0x0001 ∧ encode565 0xFF 0xFB 0xFF = 0x0020 ∧ encode565 0xFF 0xFD 0xFF = 0x0000 := by decide
/-- V-F3, V-F5, V-F10. -/
theorem test_blit : cells (exec (.blit 2 2 0xFFFF 0xFFFF [0x000A, 0x000B, 0x000C, 0x000D]) afterP1) = some [(0, 0x000D)] ∧
    cells (exec (.blit 1 1 4 0 [0x000A]) afterP1) = some [] ∧
    cells (exec (.blit 1 1 1 3 [0xABCD]) { afterP1 with cs := { csP1 with mv := some true } }) = some [(7, 0xABCD)] := by decide
/-- V-F7, V-F8, and L1-5. -/
theorem test_blit_stops : stop (exec (.blit 0 0 0 0 []) powerOn) = some (.inl .unsetState) ∧
    stop (exec (.blit 2 2 0 0 [0x000A, 0x000B, 0x000C]) afterP1) = some (.inr .badRequest) ∧
    cells (exec (.blit 2 2 3 0 [0x1111, 0x2222, 0x3333, 0x4444]) afterP1) = some [(3, 0x1111), (7, 0x3333)] := by decide
/-- V-F1. -/
theorem test_fill : cells (step (asked powerOn [0x31, 0x12, 0x34])) =
    some [(0, 0x1234), (1, 0x1234), (2, 0x1234), (3, 0x1234), (4, 0x1234), (5, 0x1234), (6, 0x1234), (7, 0x1234)] := by decide
/-- Program P2, step 4; V-F14. -/
theorem test_flush : seen (step (asked { afterP1 with fb := Memory.filled 8 0xF800 |>.write 7 0x3333 } [0x32])) =
      some (w 0x2C [0xF8, 0x00, 0xF8, 0x00, 0xF8, 0x00, 0xF8, 0x00, 0xF8, 0x00, 0xF8, 0x00, 0xF8, 0x00, 0x33, 0x33],
        [[0x00]]) ∧
    seen (step (asked { afterP1 with
        fb := Memory.filled 8 0xF800, cfg := { testCfg with pixelByteOrder := .le } } [0x32])) =
      some (w 0x2C [0x00, 0xF8, 0x00, 0xF8, 0x00, 0xF8, 0x00, 0xF8, 0x00, 0xF8, 0x00, 0xF8, 0x00, 0xF8, 0x00, 0xF8],
        [[0x00]]) := by decide
/-- V-F11, V-F12. -/
theorem test_flush_faults : stop (step (asked afterP1 [0x32])) = some (.inl .unwrittenPixel) ∧
    stop (step (asked { powerOn with fb := Memory.filled 8 0 } [0x32])) = some (.inl .unsetState) := by decide
/-- R100. -/
theorem test_cmd00 : seen (step (issuing (answering powerOn [0x5A, 0x11, 0x22]) [0x00, 0x00, 0x00, 0x00, 0x02])) = some (r 0x00 0x5A [0x11, 0x22], []) := by decide
/-- R102. -/
theorem test_cmd04 : seen (step (issuing (answering powerOn [0x5A, 0x11]) [0x04, 0x00, 0x00, 0x00, 0x01])) = some (r 0x04 0x5A [0x11], []) := by decide
/-- R101. -/
theorem test_cmd01 : seen (step (issuing afterP1 [0x01])) = some (w 0x01 [] ++ [.delay 5], []) ∧
    left (step (issuing afterP1 [0x01])) = some { Controller.reset with phase := .reset, unlocked := true } := by decide
/-- R103. -/
theorem test_cmd09 : left (step (issuing (answering afterP1 [0x00, 0x20, 0x00, 0x00, 0x00]) [0x09])) =
    some { csP1 with mx := some true } := by decide
/-- R104. -/
theorem test_cmd10 : seen (step (issuing afterP1 [0x10])) = some (w 0x10 [], []) ∧
    left (step (issuing afterP1 [0x10])) = some { csP1 with sleeping := some true } := by decide
/-- R108. -/
theorem test_cmd28 : seen (step (issuing afterP1 [0x28])) = some (w 0x28 [], []) ∧
    left (step (issuing afterP1 [0x28])) = some { csP1 with displayOn := some false } := by decide
/-- R116. -/
theorem test_cmd39 : seen (step (issuing afterP1 [0x39])) = some (w 0x39 [], []) ∧
    left (step (issuing afterP1 [0x39])) = some { csP1 with idle := some true } := by decide
/-- R105. -/
theorem test_cmd11 : seen (step (issuing powerOn [0x11])) = some (w 0x11 [] ++ [.delay 120], []) ∧
    left (step (issuing powerOn [0x11])) = some { Controller.reset with sleeping := some false } := by decide
/-- R109. -/
theorem test_cmd29 : seen (step (issuing powerOn [0x29])) = some (w 0x29 [], []) ∧
    left (step (issuing powerOn [0x29])) = some { Controller.reset with displayOn := some true } := by decide
/-- R115. -/
theorem test_cmd38 : seen (step (issuing powerOn [0x38])) = some (w 0x38 [], []) ∧
    left (step (issuing powerOn [0x38])) = some { Controller.reset with idle := some false } := by decide
/-- R117. -/
theorem test_cmd3A : seen (step (issuing powerOn [0x3A])) = some (w 0x3A [0x55], []) ∧
    left (step (issuing powerOn [0x3A])) = some { Controller.reset with pixfmt := some .format16 } := by decide
/-- R110. -/
theorem test_cmd2A : seen (step (issuing afterP1 [0x2A, 0x00, 0x12, 0x01, 0x34])) = some (w 0x2A [0x00, 0x12, 0x01, 0x34], []) ∧
    left (step (issuing afterP1 [0x2A, 0x00, 0x12, 0x01, 0x34])) =
      some { csP1 with colStart := some 0x12, colEnd := some 0x134 } := by decide
/-- R111. -/
theorem test_cmd2B : left (step (issuing afterP1 [0x2B, 0x00, 0x12, 0x01, 0x34])) =
      some { csP1 with rowStart := some 0x12, rowEnd := some 0x134 } := by decide
/-- R114. -/
theorem test_cmd36 : seen (step (issuing afterP1 [0x36, 0x38])) = some (w 0x36 [0x38], []) ∧
    left (step (issuing afterP1 [0x36, 0x38])) =
      some { csP1 with mv := some true, ml := some true, bgr := some true } := by decide
/-- R106, R107, R112, R113, R118 to R120, R124 to R127. -/
theorem test_untracked_commands : [([0x12, 0x00, 0x00, 0x00, 0x00], w 0x12 []), ([0x13], w 0x13 []),
      ([0x2C, 0x00, 0x00, 0x00, 0x01, 0xAA], w 0x2C [0xAA]), ([0x30, 0x00, 0x00, 0x00, 0x00], w 0x30 []),
      ([0xA3, 0x1F], w 0xA3 [0x1F]), ([0xB4, 0x00, 0x00, 0x00, 0x01, 0x04], w 0xB4 [0x04]), ([0xB6], w 0xB6 [0x07]),
      ([0xEF], w 0xEF []), ([0xF0, 0x00, 0x00, 0x00, 0x00], w 0xF0 []), ([0xF1, 0x00, 0x00, 0x00, 0x00], w 0xF1 []),
      ([0xFE], w 0xFE [])].all
    (fun c => seen (step (issuing powerOn c.1)) = some (c.2, []) ∧
      left (step (issuing powerOn c.1)) = some Controller.reset) = true := by decide
/-- R121 to R123. -/
theorem test_read_id_commands : [0xDA, 0xDB, 0xDC].all (fun op =>
    seen (step (issuing (answering powerOn [0x5A, 0x33]) [op, 0x00, 0x00, 0x00, 0x01])) =
      some (r op 0x5A [0x33], [])) = true := by decide

/-! ## Witnesses: states and operands that meet the hypotheses of the statements, clause by clause -/

/-- StepRunsDecodedInstruction: both clauses. -/
theorem test_witness_step_runs :
    (powerOn.faultMark = none ∧ powerOn.refusedMark = false) ∧
    ((asked powerOn [0x17]).inflight = none ∧ (asked powerOn [0x17]).requests = [0x17] :: [] ∧
      decodeRequest [0x17] = some .rdstatus) ∧
    ((issuing powerOn [0x13]).inflight = some [0x13] ∧ decodeCommand [0x13] = some .cmd13) := by decide

/-- BlockWaitsForRequest. -/
theorem test_witness_waits :
    powerOn.faultMark = none ∧ powerOn.refusedMark = false ∧ powerOn.inflight = none ∧ powerOn.requests = [] := by
  decide

/-- MarksStopTheBlock: a fault, a refusal, and both kinds of marked state. -/
theorem test_witness_marks :
    (powerOn.faultMark = none ∧ powerOn.refusedMark = false) ∧
    stop (step (asked powerOn [0x32])) = some (.inl .unsetState) ∧
    stop (step (asked powerOn [0x05])) = some (.inr .badRequest) ∧
    ({ powerOn with faultMark := some .unsetState }.faultMark.isSome = true) ∧
    { powerOn with refusedMark := true }.refusedMark = true := by decide

/-- DecodeEncodeAgree and EncodeDecodeAgree: well-formed instructions of both formats and their bytes. -/
theorem test_witness_encoding :
    (Instr.blit 2 1 0xFFFF 3 [0x1112, 0x2122]).wf = true ∧ (Instr.cmd2C [0xAA]).wf = true ∧
    (decodeRows requestRows [0x01, 0x03]).isSome = true ∧ decodeRows requestRows [0x01, 0x03] = some (.reset true true, []) ∧
    decodeRows commandRows [0x36, 0xFC] = some (.cmd36 ⟨true, true, true, true, true, true⟩, []) := by decide

/-- UndefinedRequestsRefused: one request of every kind that R130 lists. -/
theorem test_witness_undefined :
    UndefinedRequest [] ∧ UndefinedRequest [0x02, 0x13, 0x00, 0x00, 0x00, 0x01] ∧ UndefinedRequest [0x33] ∧
    UndefinedRequest [0x01, 0x04] ∧ UndefinedRequest [0x13, 0x00, 0x02] ∧ UndefinedRequest [0x1B, 0x80] ∧
    UndefinedRequest [0x12, 0x02] ∧ (asked powerOn [0x33]).requests = [0x33] :: [] :=
  ⟨.short _ (by decide), .short _ (by decide), .opCode _ _ (by decide), .resetFlags _ _ (by decide),
    .orientFlags _ _ _ (by decide), .onFlags _ _ _ (by decide) (by decide), .axis _ _ (by decide), rfl⟩

/-- ResetOperation: the reserved flag bits at both ends. -/
theorem test_witness_reset_flags : (0x04 : Byte) &&& 0xFC ≠ 0 ∧ (0x80 : Byte) &&& 0xFC ≠ 0 := by decide

/-- WriteCommandOperation and ReadRegisterOperation: a tracked opcode at each end of the set, two untracked ones. -/
theorem test_witness_raw :
    ([] : List Byte).length < 2 ^ 32 ∧ (0x01 : Byte) ∈ trackedOpcodes ∧ (0x3A : Byte) ∈ trackedOpcodes ∧
    (0x00 : Byte) ∉ trackedOpcodes ∧ (0x09 : Byte) ∉ trackedOpcodes ∧ (0x2C : Byte) ∉ trackedOpcodes := by decide

/-- WindowOperation: UNSET MV; both resolutions; each bound just outside and just inside. -/
theorem test_witness_window :
    ((0xFFFFFFFF : Word).toInt < 0 ∧ powerOn.cs.mv = none) ∧ afterP1.cs.mv = some false ∧
    0 ≤ (0 : Word).toInt ∧ (0xFFFFFFFF : Word).toInt < 0 ∧ (0x10000 : Word).toInt > 0xFFFF ∧
    (5 : Word).toInt ≥ (5 : Word).toInt ∧
    (0 ≤ (0 : Word).toInt ∧ (0 : Word).toInt ≤ 0xFFFF ∧ (1 : Word).toInt ≤ 0xFFFF ∧ (0 : Word).toInt < (1 : Word).toInt) ∧
    (0 ≤ (0xFFFE : Word).toInt ∧ (0xFFFE : Word).toInt ≤ 0xFFFF ∧ (0xFFFF : Word).toInt ≤ 0xFFFF ∧
      (0xFFFE : Word).toInt < (0xFFFF : Word).toInt) := by decide

/-- PixelFormatOperation, OrientOperation, FrameRateOperation, GammaOperation, InversionControlOperation: each side of
each check. -/
theorem test_witness_checks :
    (0 : Byte) = 0 ∧ (1 : Byte) ≠ 0 ∧ (7 : Byte).toNat ≤ 7 ∧ (8 : Byte).toNat > 7 ∧
    ((0xFF : Word).toNat ≤ 0xFF ∧ (0xFF : Word).setWidth 8 &&& ~~~testCfg.frMask = 0) ∧
    (0x100 : Word).toNat > 0xFF ∧ (0x20 : Word).setWidth 8 &&& ~~~(0x1F : Byte) ≠ 0 ∧
    (List.replicate 29 (0 : Word)).length = 29 ∧ (4 : Word).toNat ≤ 4 ∧ (5 : Word).toNat > 4 := by decide

/-- UnlockSequence: both values of the flag. -/
theorem test_witness_unlock : powerOn.cs.unlocked = false ∧ afterP1.cs.unlocked = true := by decide

/-- WritePixelsOperation and EncodeOperation: a format UNSET and set, a payload odd and even. -/
theorem test_witness_format :
    powerOn.cs.pixfmt = none ∧ afterP1.cs.pixfmt = some .format16 ∧ ([0xF8] : List Byte).length % 2 ≠ 0 ∧
    ([] : List Byte).length % 2 = 0 ∧ ([0xF8] : List Byte).length < 2 ^ 32 := by decide

/-- BlitOperation: MV UNSET and set, a list of the wrong and of the right length, the last cell of the buffer, and the
first one outside. -/
theorem test_witness_blit :
    powerOn.cs.mv = none ∧ afterP1.cs.mv ≠ none ∧ afterP1.cs.mv = some false ∧
    ([] : List Pixel).length ≠ (1 : Half).toNat * (1 : Half).toNat ∧
    ([0xABCD] : List Pixel).length = (1 : Half).toNat * (1 : Half).toNat ∧
    (3 < testCfg.panelW ∧ 1 < testCfg.panelH) ∧ testCfg.panelW * testCfg.panelH ≤ 8 := by decide

/-- FillOperation: a framebuffer with its last cell written lies inside. -/
theorem test_witness_fill :
    (∀ cell ∈ ({ powerOn with fb := [(7, 0x1234)] } : State).fb, cell.1 < testCfg.panelW * testCfg.panelH) ∧
    7 < testCfg.panelW * testCfg.panelH := by decide

/-- FlushOperation: an UNWRITTEN cell, and a full buffer. -/
theorem test_witness_flush :
    afterP1.cs.pixfmt ≠ none ∧ (7 < testCfg.panelW * testCfg.panelH ∧ afterP1.fb.read 7 = none) ∧
    ((List.replicate 8 (0xF800 : Pixel)).length = testCfg.panelW * testCfg.panelH ∧
      ∀ i, i < 8 → (Memory.filled 8 0xF800).read i = (List.replicate 8 (0xF800 : Pixel))[i]?) := by decide

/-- ReadCommandsFrame, UntrackedCommandsFrame, PowerCommandsTrackFlags: a member of each list. -/
theorem test_witness_commands :
    (Instr.cmd00 0, (0x00 : Byte)) ∈ [(Instr.cmd00 0, (0x00 : Byte)), (.cmd04 0, 0x04), (.cmdDA 0, 0xDA),
      (.cmdDB 0, 0xDB), (.cmdDC 0, 0xDC)] ∧
    (Instr.cmd13, (0x13 : Byte), ([] : List Byte)) ∈ [(Instr.cmd12 [], (0x12 : Byte), []), (.cmd13, 0x13, [])] ∧
    (Instr.cmd28, writeFrame 0x28 [], { csP1 with displayOn := some false }) ∈
      [(Instr.cmd28, writeFrame 0x28 [], { afterP1.cs with displayOn := some false })] := by decide

/-- EveryRequestAnsweredOnce, FramebufferWriters, UnlockedWriters, PhaseWriters, PowerFlagWriters: host operations that
answer a next state, on both sides of every guard. -/
theorem test_witness_next :
    isHostOp .init = true ∧ left (exec .init powerOn) = some csP1 ∧
    left (exec (.reset false false) afterP1) = some csP1 ∧ left (exec (.idle false) afterP1) = some csP1 ∧
    powerOn.cs.unlocked = false ∧ afterP1.cs.unlocked = true ∧ testCfg.unlockClearedByReset = false ∧
    (left (exec (.setframerate 0) powerOn)).map (·.unlocked) = some true := by decide

/-- ErrorsHaveNoSideEffects and InvalidArgumentExactly: an error of each kind, privileged and not. -/
theorem test_witness_errors :
    isPrivileged (.setframerate 0x100) = true ∧ isPrivileged (.setpixfmt 1) = false ∧
    (seen (exec (.setframerate 0x100) powerOn)).map (·.2) = some [[0x01]] ∧
    (seen (exec (.setpixfmt 1) powerOn)).map (·.2) = some [[0x02]] ∧ Status.invalidArgument ≠ .ok := by decide

/-- StepKeepsInv: a state after INIT, with a request that answers a next state. -/
theorem test_witness_inv : (asked afterP1 [0x31, 0x12, 0x34]).Inv ∧
    (cells (step (asked afterP1 [0x31, 0x12, 0x34]))).isSome = true :=
  ⟨⟨by decide, by decide, by decide, by decide, by decide, by decide, by decide, by decide, by decide⟩, by decide⟩

/-- TraceOnlyGrows, StepKeepsTraceLegal, StepKeepsMirror, PrivilegedFollowsUnlock: power-on with a request. -/
theorem test_witness_trace :
    (asked powerOn [0x14, 0x00, 0x00, 0x00, 0x00]).TraceInv ∧ (asked powerOn [0x14, 0x00, 0x00, 0x00, 0x00]).MirrorInv ∧
    (asked powerOn [0x14, 0x00, 0x00, 0x00, 0x00]).UnlockInv ∧ testCfg.wf = true ∧
    (left (step (asked powerOn [0x14, 0x00, 0x00, 0x00, 0x00]))).isSome = true ∧
    isPrivileged (.setframerate 0) = true :=
  ⟨⟨by decide, by simp [asked, powerOn, State.reset, levelsAfter], by decide⟩,
    ⟨by decide, by decide, by decide, by decide, by decide, by decide, by decide, by decide, by decide⟩,
    by simp [State.UnlockInv, asked, powerOn, State.reset, Controller.reset], by decide, by decide, by decide⟩

/-- StepKeepsOrientationMirror: each clause, from a state that no memory-access-control was sent in. -/
theorem test_witness_orientation :
    (asked powerOn [0x10]).OrientMirror ∧ (asked powerOn [0x10]).cfg.wf = true ∧
    (asked powerOn [0x10]).pending = some (.request [0x10]) ∧
    (decode (.request [0x10]) ≠ some .rdstatus ∧ decode (.request [0x10]) ≠ some .cmd09) ∧
    (left (step (asked powerOn [0x10]))).isSome = true ∧
    (left (exec (.setorient 7 true) powerOn)).isSome = true ∧ (7 : Byte).toNat ≤ 7 ∧
    (left (exec (.cmd36 ⟨true, false, true, false, false, true⟩) afterP1)).isSome = true ∧
    (left (exec (.reset true false) afterP1)).isSome = true ∧ (left (exec .cmd01 afterP1)).isSome = true :=
  ⟨⟨by decide, by decide, by decide, by decide, by decide, by decide⟩, by decide, by decide, by decide, by decide,
    by decide, by decide, by decide, by decide, by decide⟩

/-- PrivilegedFollowsUnlock: INIT that unlocks, and an error of a privileged operation, from power-on. -/
theorem test_witness_privileged :
    powerOn.UnlockInv ∧ powerOn.cfg.initUnlocks = true ∧ (left (exec .init powerOn)).isSome = true ∧
    (seen (exec (.setframerate 0x100) powerOn)).map (·.2) = some [[0x01]] :=
  ⟨by simp [State.UnlockInv, powerOn, State.reset, Controller.reset], by decide, by decide, by decide⟩

end Sys2Proof.Tests
end

/-! PROOFS. 10_state.md: power-on, the step and its marks, who writes which state, and the invariants every step keeps. -/

namespace Sys2Proof.Machine

/-! ## State facts -/

@[simp] theorem take_cfg (m : Message) (s : State) : (s.take m).cfg = s.cfg := by cases m <;> rfl
@[simp] theorem take_cs (m : Message) (s : State) : (s.take m).cs = s.cs := by cases m <;> rfl
@[simp] theorem take_trace (m : Message) (s : State) : (s.take m).trace = s.trace := by cases m <;> rfl

@[simp] theorem readStatus_cs (s : State) :
    (readStatus s).2.cs =
      s.cs.withOrientation (statusDecode s.cfg.statusLayout (statusWord (readStatus s).1)).orientation := by
  simp [readStatus]

theorem readStatus_length (s : State) : (readStatus s).1.length = 4 := frameRead_length 0x09 4 s

/-! ## How the operations that can stop, raise an error or read the panel answer a next state -/

theorem wrcmd_next {op : Byte} {ps : List Byte} {s t : State} (h : exec (.wrcmd op ps) s = .next t) :
    op ∉ trackedOpcodes ∧ t = respond ⟨.ok, []⟩ (frameWrite op ps s) := by
  simp only [exec, execWrcmd] at h
  split at h <;> cases h
  next hn => exact ⟨hn, rfl⟩

theorem rdreg_next {op : Byte} {n : Word} {s t : State} (h : exec (.rdreg op n) s = .next t) :
    op ∉ trackedOpcodes ∧ t = respond ⟨.ok, (frameRead op n.toNat s).1⟩ (frameRead op n.toNat s).2 := by
  simp only [exec, execRdreg] at h
  split at h <;> cases h
  next hn => exact ⟨hn, rfl⟩

theorem setpixfmt_next {fmt : Byte} {s t : State} (h : exec (.setpixfmt fmt) s = .next t) :
    (fmt = 0 ∧ t = respond ⟨.ok, []⟩ (setFormat16 s)) ∨ (fmt ≠ 0 ∧ t = respond ⟨.unsupportedFormat, []⟩ s) := by
  simp only [exec, execSetpixfmt] at h
  split at h <;> cases h
  next hf => exact .inl ⟨hf, rfl⟩
  next hf => exact .inr ⟨hf, rfl⟩

theorem setwin_next {axis : Axis} {start stop : Word} {s t : State} (h : exec (.setwin axis start stop) s = .next t) :
    ∃ stop', resolveEnd axis stop s = some stop' ∧
      ((windowLegal start.toInt stop' = true ∧
          t = respond ⟨.ok, []⟩ (writeWindow axis (BitVec.ofInt 16 start.toInt) (BitVec.ofInt 16 stop') s)) ∨
        (windowLegal start.toInt stop' = false ∧ t = respond ⟨.invalidArgument, []⟩ s)) := by
  simp only [exec, execSetwin] at h
  split at h
  · cases h
  next stop' he =>
    refine ⟨stop', he, ?_⟩
    split at h <;> cases h
    next hl => exact .inl ⟨hl, rfl⟩
    next hl => exact .inr ⟨by simpa using hl, rfl⟩

/-- What SETORIENT sends and writes once it has read the status (41_controller.md R166). -/
def sendPreset (o : Orientation) (keepWindow : Bool) (s : State) : State :=
  if keepWindow then writeOrientation o.byte s
  else writeFullWindow .row o.mv (writeFullWindow .col o.mv (writeOrientation o.byte s))

@[simp] theorem sendPreset_responses (o : Orientation) (keep : Bool) (s : State) :
    (sendPreset o keep s).responses = s.responses := by
  cases keep <;> simp [sendPreset]

@[simp] theorem sendPreset_pc (o : Orientation) (keep : Bool) (s : State) : (sendPreset o keep s).pc = s.pc := by
  cases keep <;> simp [sendPreset]

theorem setorient_next {preset : Byte} {keep : Bool} {s t : State} (h : exec (.setorient preset keep) s = .next t) :
    (preset.toNat > 7 ∧ t = respond ⟨.invalidArgument, []⟩ s) ∨
      (preset.toNat ≤ 7 ∧ ∃ seen o : Orientation,
        seen = (statusDecode s.cfg.statusLayout (statusWord (readStatus s).1)).orientation ∧
        o = presetOrientation preset seen.ml seen.bgr seen.mh ∧
        t = respond ⟨.ok, []⟩ (sendPreset o keep (readStatus s).2)) := by
  simp only [exec, execSetorient] at h
  split at h <;> cases h
  next hp => exact .inl ⟨hp, rfl⟩
  next hp => exact .inr ⟨Nat.le_of_not_lt hp, _, _, by rw [readStatus_cfg], rfl, rfl⟩

theorem setframerate_next {value : Word} {s t : State} (h : exec (.setframerate value) s = .next t) :
    (frameRateLegal s.cfg.frMask value = true ∧
        t = respond ⟨.ok, []⟩ (frameWrite 0xA3 [value.setWidth 8] (ensureUnlocked s))) ∨
      (frameRateLegal s.cfg.frMask value = false ∧ t = respond ⟨.invalidArgument, []⟩ (ensureUnlocked s)) := by
  simp only [exec, execSetframerate, ensureUnlocked_cfg] at h
  split at h <;> cases h
  next hl => exact .inl ⟨hl, rfl⟩
  next hl => exact .inr ⟨by simpa using hl, rfl⟩

theorem setgamma_next {coeffs : List Word} {s t : State} (h : exec (.setgamma coeffs) s = .next t) :
    (Config.gammaEncode (coeffs.map BitVec.toInt) = none ∧ t = respond ⟨.invalidArgument, []⟩ (ensureUnlocked s)) ∨
      ∃ p0 p1, Config.gammaEncode (coeffs.map BitVec.toInt) = some (p0, p1) ∧
        t = respond ⟨.ok, []⟩ (frameWrite 0xF1 p1 (frameWrite 0xF0 p0 (ensureUnlocked s))) := by
  simp only [exec, execSetgamma] at h
  split at h <;> cases h
  next hg => exact .inl ⟨hg, rfl⟩
  next p0 p1 hg => exact .inr ⟨p0, p1, hg, rfl⟩

theorem setinvctl_next {mode colorfix : Word} {s t : State} (h : exec (.setinvctl mode colorfix) s = .next t) :
    (invEncode mode.toNat colorfix.toNat = none ∧ t = respond ⟨.invalidArgument, []⟩ (ensureUnlocked s)) ∨
      ∃ params, invEncode mode.toNat colorfix.toNat = some params ∧
        t = respond ⟨.ok, []⟩ (frameWrite 0xB4 params (ensureUnlocked s)) := by
  simp only [exec, execSetinvctl] at h
  split at h <;> cases h
  next hi => exact .inl ⟨hi, rfl⟩
  next params hi => exact .inr ⟨params, hi, rfl⟩

theorem rdstatus_next {s t : State} (h : exec .rdstatus s = .next t) :
    t = respond ⟨.ok, (readStatus s).1⟩ (readStatus s).2 := (Host.Outcome.next.inj h).symm

theorem cmd09_next {s t : State} (h : exec .cmd09 s = .next t) : t = (readStatus s).2 :=
  (Host.Outcome.next.inj h).symm

theorem wrpixels_next {bytes : List Byte} {s t : State} (h : exec (.wrpixels bytes) s = .next t) :
    ∃ size, s.cs.bytesize = some size ∧
      ((bytes.length % size = 0 ∧ t = respond ⟨.ok, []⟩ (frameWrite 0x2C bytes s)) ∨
        (bytes.length % size ≠ 0 ∧ t = respond ⟨.invalidArgument, []⟩ s)) := by
  simp only [exec, execWrpixels] at h
  split at h
  · cases h
  next size hz =>
    refine ⟨size, hz, ?_⟩
    split at h <;> cases h
    next hl => exact .inl ⟨hl, rfl⟩
    next hl => exact .inr ⟨hl, rfl⟩

theorem encode_next {r g b : Byte} {s t : State} (h : exec (.encode r g b) s = .next t) :
    ∃ fmt, s.cs.pixfmt = some fmt ∧ t = respond ⟨.ok, Half.bytes (fmt.encodeColor r g b)⟩ s := by
  simp only [exec, execEncode] at h
  split at h <;> cases h
  next fmt hf => exact ⟨fmt, hf, rfl⟩

theorem blit_next {sw sh x y : Half} {src : List Pixel} {s t : State} (h : exec (.blit sw sh x y src) s = .next t) :
    ∃ mv, s.cs.mv = some mv ∧ src.length = sw.toNat * sh.toNat ∧
      t = respond ⟨.ok, []⟩
        (s.setFb (s.fb.writeAll (blitWrites (fbDims s.cfg mv) sw.toNat sh.toNat x.toInt y.toInt src))) := by
  simp only [exec, execBlit] at h
  split at h
  · cases h
  next mv hm =>
    split at h <;> cases h
    next hl => exact ⟨mv, hm, hl, rfl⟩

theorem flush_next {s t : State} (h : exec .flush s = .next t) :
    s.cs.bytesize ≠ none ∧ s.fb.allWritten s.cfg.cells = true ∧
      t = respond ⟨.ok, []⟩ (frameWrite 0x2C (flushBytes s.cfg.pixelByteOrder s.fb s.cfg.cells) s) := by
  simp only [exec, execFlush] at h
  split at h
  · cases h
  next size hz =>
    split at h <;> cases h
    next hw => exact ⟨by simp [hz], hw, rfl⟩

/-! ## What a listener has heard after each bus command -/

@[simp] theorem listen_frameWrite (op : Byte) (ps : List Byte) (tr : List Event) :
    listen (tr ++ writeFrame op ps) = ⟨none, [], true, (listen tr).sent.frame op ps⟩ := by
  rw [listen_append, hear_writeFrame]

theorem listen_frameRead {op : Byte} (h : op ∉ trackedOpcodes) (n : Nat) (s : State) :
    listen (frameRead op n s).2.trace = ⟨none, [], true, (listen s.trace).sent⟩ := by
  rw [frameRead_trace, listen_append, hear_readFrame, frame_untracked _ _ _ h]

@[simp] theorem listen_softwareReset (s : State) :
    listen (softwareReset s).trace = ⟨none, [], true, Sent.nothing⟩ := by
  rw [(softwareReset_emitted s).trace, ← List.append_assoc, listen_append, listen_frameWrite]
  rfl

@[simp] theorem listen_hardwareReset (s : State) :
    listen (hardwareReset s).trace = { listen s.trace with sent := Sent.nothing } := by
  rw [(hardwareReset_emitted s).trace, listen_append]
  rfl

@[simp] theorem listen_sleepIn (s : State) :
    listen (sleepIn s).trace = ⟨none, [], true, { (listen s.trace).sent with sleeping := some true }⟩ := by
  rw [(sleepIn_emitted s).trace, listen_frameWrite]
  rfl

@[simp] theorem listen_sleepOut (s : State) :
    listen (sleepOut s).trace = ⟨none, [], true, { (listen s.trace).sent with sleeping := some false }⟩ := by
  rw [(sleepOut_emitted s).trace, ← List.append_assoc, listen_append, listen_frameWrite]
  rfl

@[simp] theorem listen_displayOn (s : State) :
    listen (displayOn s).trace = ⟨none, [], true, { (listen s.trace).sent with displayOn := some true }⟩ := by
  rw [(displayOn_emitted s).trace, listen_frameWrite]
  rfl

/-- Under legal parameters both display-off opcodes are tracked; `0x29` is heard as display-on (41_controller.md
R175). -/
theorem listen_displayOff {op : Byte} (h : op = 0x28 ∨ op = 0x29) (s : State) :
    listen (displayOff op s).trace =
      ⟨none, [], true, { (listen s.trace).sent with displayOn := some (decide (op = 0x29)) }⟩ := by
  rw [(displayOff_emitted op s).trace, listen_frameWrite]
  obtain rfl | rfl := h <;> rfl

@[simp] theorem listen_writeWindow_col (a b : Half) (s : State) :
    listen (writeWindow .col a b s).trace = ⟨none, [], true, { (listen s.trace).sent with col := some (a, b) }⟩ := by
  rw [(writeWindow_emitted .col a b s).trace, listen_frameWrite, ← bounds_windowParams a b]
  rfl

@[simp] theorem listen_writeWindow_row (a b : Half) (s : State) :
    listen (writeWindow .row a b s).trace = ⟨none, [], true, { (listen s.trace).sent with row := some (a, b) }⟩ := by
  rw [(writeWindow_emitted .row a b s).trace, listen_frameWrite, ← bounds_windowParams a b]
  rfl

@[simp] theorem listen_writeOrientation (m : Byte) (s : State) :
    listen (writeOrientation m s).trace = ⟨none, [], true, { (listen s.trace).sent with orientation := some m }⟩ := by
  rw [(writeOrientation_emitted m s).trace, listen_frameWrite]
  rfl

@[simp] theorem listen_idleOff (s : State) :
    listen (idleOff s).trace = ⟨none, [], true, { (listen s.trace).sent with idle := some false }⟩ := by
  rw [(idleOff_emitted s).trace, listen_frameWrite]
  rfl

@[simp] theorem listen_idleOn (s : State) :
    listen (idleOn s).trace = ⟨none, [], true, { (listen s.trace).sent with idle := some true }⟩ := by
  rw [(idleOn_emitted s).trace, listen_frameWrite]
  rfl

@[simp] theorem listen_setFormat16 (s : State) :
    listen (setFormat16 s).trace =
      ⟨none, [], true, { (listen s.trace).sent with pixfmt := some s.cfg.pf16Code }⟩ := by
  rw [(setFormat16_emitted s).trace, listen_frameWrite]
  rfl

@[simp] theorem listen_readStatus (s : State) :
    listen (readStatus s).2.trace = ⟨none, [], true, (listen s.trace).sent⟩ :=
  listen_frameRead (op := 0x09) (by decide) 4 s

/-- The unlock sequence is untracked: what was sent before stays. -/
@[simp] theorem sent_ensureUnlocked (s : State) :
    (listen (ensureUnlocked s).trace).sent = (listen s.trace).sent := by
  unfold ensureUnlocked
  split
  · rfl
  · simp only [modifyCs_trace, frameWrite_trace, listen_frameWrite]
    rfl

theorem op_ensureUnlocked {s : State} (h : (listen s.trace).op = none) :
    (listen (ensureUnlocked s).trace).op = none := by
  unfold ensureUnlocked
  split
  · exact h
  · simp only [modifyCs_trace, frameWrite_trace, listen_frameWrite]

/-! ## The mirror -/

/-- Legal parameters know two display-off opcodes (92_eei_decisions.md D37). -/
theorem displayOffOpcode_of_wf {cfg : Config} (h : cfg.wf = true) :
    cfg.displayOffOpcode = 0x28 ∨ cfg.displayOffOpcode = 0x29 := by
  simp only [Config.wf, Bool.and_eq_true, Bool.or_eq_true, decide_eq_true_eq] at h
  exact h.1.2

/-- Each piece writes a mirrored field to what its frame is heard to send. -/
theorem Piece.keeps_mirror {host reads : Bool} {s t : State} (k : Piece host reads s t) (hc : s.cfg.wf = true)
    (h : s.MirrorInv) : t.MirrorInv := by
  obtain ⟨hop, hpixfmt, hcs, hce, hrs, hre, hsleep, hidle, hdisplay⟩ := h
  cases k with
  | softwareReset | hardwareReset => constructor <;> simp [hop, Sent.nothing]
  | displayOff op ho =>
    have ho' : op = 0x28 ∨ op = 0x29 := ho.elim .inl fun e => e ▸ displayOffOpcode_of_wf hc
    constructor <;> simp +contextual [listen_displayOff ho', *]
    case displayOn => grind
  | window axis a b => cases axis <;> constructor <;> simp +contextual [*]
  | unlock => constructor <;> simp +contextual [op_ensureUnlocked, ensureUnlocked_cs, *]
  | write op ps hn => constructor <;> simp +contextual [frame_untracked _ _ _ hn, *]
  | read op n hn => constructor <;> simp +contextual [listen_frameRead hn, *]
  | sleepIn | sleepOut | displayOn | orientation | idleOff | idleOn | format | status | fb | configured | response =>
    constructor <;> simp +contextual [*]

/-- What every piece keeps under legal parameters, a chain keeps under them: no piece writes the parameters. -/
theorem Pieces.keeps_of_wf {host reads : Bool} {s t : State} (h : Pieces host reads s t) (P : State → Prop)
    (k : ∀ a b, a.cfg.wf = true → P a → Piece host reads a b → P b) (hc : s.cfg.wf = true) (hs : P s) : P t := by
  have key := h.keeps (fun u => u.cfg.wf = true ∧ P u) ?_ ⟨hc, hs⟩
  · exact key.2
  · rintro a b ⟨hca, ha⟩ p
    obtain ⟨es, he⟩ := p.emitted
    exact ⟨he.cfg ▸ hca, k a b hca ha p⟩

theorem exec_keeps_mirror {i : Instr} {s t : State} (h : exec i s = .next t) (hc : s.cfg.wf = true)
    (hs : s.MirrorInv) : t.MirrorInv :=
  (exec_pieces h).keeps_of_wf State.MirrorInv (fun _ _ hca ha k => k.keeps_mirror hca ha) hc hs

theorem State.MirrorInv.take {s : State} (h : s.MirrorInv) (m : Message) : (s.take m).MirrorInv := by
  obtain ⟨hop, hpixfmt, hcs, hce, hrs, hre, hsleep, hidle, hdisplay⟩ := h
  constructor <;> simpa

/-- Settles O54: a step waits or runs an instruction, and each of its pieces keeps the mirror. -/
theorem stepKeepsMirror : Obligations.StepKeepsMirror := by
  intro s t hc hs h
  obtain ⟨-, -, ⟨rfl, -⟩ | ⟨m, i, -, -, he⟩⟩ := step_next h
  · exact hs
  · exact exec_keeps_mirror he (by simpa using hc) (hs.take m)

/-! ## The orientation mirror -/

theorem softwareReset_orientMirror (s : State) : (softwareReset s).OrientMirror := by
  constructor <;> simp [Sent.nothing]

theorem hardwareReset_orientMirror (s : State) : (hardwareReset s).OrientMirror := by
  constructor <;> simp [Sent.nothing]

theorem writeOrientation_orientMirror (m : Byte) (s : State) : (writeOrientation m s).OrientMirror := by
  constructor <;> simp [Orientation.ofByte]

theorem State.OrientMirror.take {s : State} (h : s.OrientMirror) (m : Message) : (s.take m).OrientMirror := by
  obtain ⟨hmy, hmx, hmv, hml, hbgr, hmh⟩ := h
  constructor <;> simpa

/-- Where nothing reads the panel's status, every piece keeps the orientation fields at the byte last sent. -/
theorem Piece.keeps_orientMirror {host : Bool} {s t : State} (k : Piece host false s t) (hc : s.cfg.wf = true)
    (h : s.OrientMirror) : t.OrientMirror := by
  obtain ⟨hmy, hmx, hmv, hml, hbgr, hmh⟩ := h
  cases k with
  | softwareReset => exact softwareReset_orientMirror s
  | hardwareReset => exact hardwareReset_orientMirror s
  | orientation m => exact writeOrientation_orientMirror m s
  | displayOff op ho =>
    have ho' : op = 0x28 ∨ op = 0x29 := ho.elim .inl fun e => e ▸ displayOffOpcode_of_wf hc
    constructor <;> simp [listen_displayOff ho', *]
  | window axis a b => cases axis <;> constructor <;> simp [*]
  | status hr => cases hr
  | unlock => constructor <;> simp [ensureUnlocked_cs, *]
  | write op ps hn => constructor <;> simp [frame_untracked _ _ _ hn, *]
  | read op n hn => constructor <;> simp [listen_frameRead hn, *]
  | sleepIn | sleepOut | displayOn | idleOff | idleOn | format | fb | configured | response =>
    constructor <;> simp [*]

theorem exec_keeps_orientMirror {i : Instr} {s t : State} (h : exec i s = .next t) (hr : readsStatus i = false)
    (hc : s.cfg.wf = true) (hs : s.OrientMirror) : t.OrientMirror := by
  have hp := exec_pieces h
  rw [hr] at hp
  exact hp.keeps_of_wf State.OrientMirror (fun _ _ hca ha k => k.keeps_orientMirror hca ha) hc hs

/-- INIT sends memory-access-control, and nothing it sends afterwards is about the orientation (41_controller.md
R160). -/
theorem init_orientMirror {s t : State} (h : exec .init s = .next t) : t.OrientMirror := by
  cases h
  cases s.cfg.initUnlocks <;> constructor <;>
    simp [frame_untracked _ 0xA3#8 _ (by decide), ensureUnlocked_cs, Orientation.ofByte]

/-- SETORIENT with a preset sends memory-access-control, and address-sets at most afterwards (41_controller.md R166). -/
theorem setorient_orientMirror {preset : Byte} {keep : Bool} {s t : State}
    (h : exec (.setorient preset keep) s = .next t) (hp : preset.toNat ≤ 7) : t.OrientMirror := by
  obtain ⟨hp', -⟩ | ⟨-, _, _, -, -, rfl⟩ := setorient_next h
  · exact absurd hp (Nat.not_le.2 hp')
  · cases keep <;> constructor <;> simp [sendPreset, writeFullWindow, Orientation.ofByte]

theorem reset_orientMirror {hw sw : Bool} {s t : State} (h : exec (.reset hw sw) s = .next t)
    (hf : hw = true ∨ sw = true) : t.OrientMirror := by
  cases h
  cases hw <;> cases sw <;> constructor <;> simp_all [Sent.nothing]

theorem readsStatus_iff (i : Instr) :
    readsStatus i = true ↔ (∃ preset keep, i = .setorient preset keep) ∨ i = .rdstatus ∨ i = .cmd09 := by
  cases i <;> simp [readsStatus]

/-- A refused preset reads no status, so SETORIENT as a whole keeps the mirror. -/
theorem setorient_keeps_orientMirror {preset : Byte} {keep : Bool} {s t : State}
    (h : exec (.setorient preset keep) s = .next t) (hc : s.cfg.wf = true) (hs : s.OrientMirror) :
    t.OrientMirror := by
  obtain ⟨-, rfl⟩ | ⟨hp, -⟩ := setorient_next h
  · exact (Piece.response (host := true) _ rfl).keeps_orientMirror hc hs
  · exact setorient_orientMirror h hp

/-- Settles O55: every piece but a status read keeps the mirror, and SETORIENT sends the byte after its read; what sends
memory-access-control or resets the panel makes it. -/
theorem stepKeepsOrientationMirror : Obligations.StepKeepsOrientationMirror := by
  constructor
  · intro s t hc hs h hm
    obtain ⟨-, -, ⟨rfl, -⟩ | ⟨m, i, hp, hd, he⟩⟩ := step_next h
    · exact hs
    · have hct : (s.take m).cfg.wf = true := by simpa using hc
      obtain ⟨hstatus, hcommand⟩ := hm m hp
      cases hr : readsStatus i with
      | false => exact exec_keeps_orientMirror he hr hct (hs.take m)
      | true =>
        obtain ⟨preset, keep, rfl⟩ | rfl | rfl := (readsStatus_iff i).1 hr
        · exact setorient_keeps_orientMirror he hct (hs.take m)
        · exact absurd hd hstatus
        · exact absurd hd hcommand
  · rintro i s t h (rfl | ⟨preset, keep, rfl, hp⟩ | ⟨o, rfl⟩ | ⟨hw, sw, rfl, hf⟩ | rfl)
    · exact init_orientMirror h
    · exact setorient_orientMirror h hp
    · cases h; exact writeOrientation_orientMirror _ s
    · exact reset_orientMirror h hf
    · cases h; exact softwareReset_orientMirror s

/-! ## The state invariant -/

/-- Nothing writes `inverted` (10_state.md R29). -/
theorem Piece.inverted {host reads : Bool} {s t : State} (k : Piece host reads s t) :
    t.cs.inverted = s.cs.inverted := by
  cases k with
  | window axis => cases axis <;> simp
  | unlock => simp [ensureUnlocked_cs]
  | _ => simp

/-- A host operation sends ordered windows only (10_state.md R31). -/
theorem Piece.keeps_windows {reads : Bool} {s t : State} (k : Piece true reads s t) (hc : s.cfg.wf = true)
    (h : windowOrdered s.cs.colStart s.cs.colEnd = true ∧ windowOrdered s.cs.rowStart s.cs.rowEnd = true) :
    windowOrdered t.cs.colStart t.cs.colEnd = true ∧ windowOrdered t.cs.rowStart t.cs.rowEnd = true := by
  cases k with
  | softwareReset | hardwareReset => simp [windowOrdered]
  | window axis a b hl =>
    have hab : windowOrdered (some a) (some b) = true := by simpa [windowOrdered] using hl rfl hc
    cases axis
    · exact ⟨hab, h.2⟩
    · exact ⟨h.1, hab⟩
  | unlock => simpa [ensureUnlocked_cs] using h
  | _ => simpa using h

/-- The framebuffer stays canonical and inside its N cells (10_state.md R33). -/
theorem Piece.keeps_fb {host reads : Bool} {s t : State} (k : Piece host reads s t)
    (h : s.fb.wf = true ∧ ∀ c ∈ s.fb, c.1 < s.cfg.cells) : t.fb.wf = true ∧ ∀ c ∈ t.fb, c.1 < t.cfg.cells := by
  cases k with
  | fb m _ hw hi => exact ⟨hw h.1, hi h.2⟩
  | _ => simpa using h

/-- The position counts the responses (10_state.md R20). -/
theorem Piece.keeps_counted {host reads : Bool} {s t : State} (k : Piece host reads s t)
    (h : s.pc = s.responses.length) : t.pc = t.responses.length := by
  cases k with
  | response r => simp [h]
  | _ => simpa using h

theorem Piece.keeps_inv {reads : Bool} {s t : State} (k : Piece true reads s t) (h : s.Inv) : t.Inv := by
  obtain ⟨es, he⟩ := k.emitted
  obtain ⟨hcol, hrow⟩ := k.keeps_windows h.cfg ⟨h.colWindow, h.rowWindow⟩
  obtain ⟨hcanonical, hinside⟩ := k.keeps_fb ⟨h.fbCanonical, h.fbInside⟩
  exact
    { cfg := he.cfg ▸ h.cfg
      pins := he.pins h.pins
      colWindow := hcol
      rowWindow := hrow
      inverted := k.inverted.trans h.inverted
      fbCanonical := hcanonical
      fbInside := hinside
      inflight := he.inflight.trans h.inflight
      counted := k.keeps_counted h.counted }

theorem exec_keeps_inv {i : Instr} {s t : State} (hi : isHostOp i = true) (h : exec i s = .next t) (hs : s.Inv) :
    t.Inv := by
  have hp := exec_pieces h
  rw [hi] at hp
  exact hp.keeps State.Inv (fun _ _ ha k => k.keeps_inv ha) hs

theorem State.Inv.takeRequest {s : State} (h : s.Inv) (bytes : List Byte) : (s.take (.request bytes)).Inv :=
  ⟨h.cfg, h.pins, h.colWindow, h.rowWindow, h.inverted, h.fbCanonical, h.fbInside, h.inflight, h.counted⟩

/-- With the in-flight slot empty, what is pending is the host's next request. -/
theorem pending_of_idle {s : State} (h : s.inflight = none) {m : Message} (hp : s.pending = some m) :
    ∃ bytes, m = .request bytes := by
  unfold State.pending at hp
  rw [h] at hp
  cases hr : s.requests with
  | nil => rw [hr] at hp; cases hp
  | cons bytes rest => rw [hr] at hp; cases hp; exact ⟨bytes, rfl⟩

/-- Settles O52: with no command in flight a step runs a host operation, and each of its pieces keeps the invariant. -/
theorem stepKeepsInv : Obligations.StepKeepsInv := by
  intro s t hs h
  obtain ⟨-, -, ⟨rfl, -⟩ | ⟨m, i, hp, hd, he⟩⟩ := step_next h
  · exact hs
  · obtain ⟨bytes, rfl⟩ := pending_of_idle hs.inflight hp
    exact exec_keeps_inv (isHostOp_of_decodeRequest hd) he (hs.takeRequest bytes)

/-! ## The response -/

/-- The responses that carry data: of RDREG, RDSTATUS and ENCODE, with status OK (30_encoding.md R83). -/
def ReturnsData (i : Instr) (r : Response) : Prop :=
  r.status = .ok ∧
    ((∃ op count, i = .rdreg op count ∧ r.data.length = count.toNat) ∨ (i = .rdstatus ∧ r.data.length = 4) ∨
      ∃ x y z, i = .encode x y z ∧ r.data.length = 2)

/-- The responses a host operation can give. -/
inductive Reply (i : Instr) : Response → Prop
  | done : Reply i ⟨.ok, []⟩
  | invalid : Reply i ⟨.invalidArgument, []⟩
  | unsupported : Reply i ⟨.unsupportedFormat, []⟩
  | data (r : Response) (h : ReturnsData i r) : Reply i r

/-- A host operation that ends gives one response, after everything else it did. -/
theorem exec_replies {i : Instr} {s t : State} (hh : isHostOp i = true) (h : exec i s = .next t) :
    ∃ u r, t = respond r u ∧ u.responses = s.responses ∧ u.pc = s.pc ∧ Reply i r := by
  cases i with
  | reset hw sw => cases h; cases hw <;> cases sw <;> exact ⟨_, _, rfl, by simp, by simp, .done⟩
  | wrcmd op ps => obtain ⟨-, rfl⟩ := wrcmd_next h; exact ⟨_, _, rfl, by simp, by simp, .done⟩
  | rdreg op n =>
    obtain ⟨-, rfl⟩ := rdreg_next h
    exact ⟨_, _, rfl, by simp, by simp, .data _ ⟨rfl, .inl ⟨op, n, rfl, frameRead_length op n.toNat s⟩⟩⟩
  | init =>
    cases h
    exact ⟨_, _, rfl, by cases s.cfg.initUnlocks <;> simp, by cases s.cfg.initUnlocks <;> simp, .done⟩
  | setpixfmt fmt =>
    obtain ⟨-, rfl⟩ | ⟨-, rfl⟩ := setpixfmt_next h
    · exact ⟨_, _, rfl, by simp, by simp, .done⟩
    · exact ⟨_, _, rfl, rfl, rfl, .unsupported⟩
  | setwin axis start stop =>
    obtain ⟨_, -, ⟨-, rfl⟩ | ⟨-, rfl⟩⟩ := setwin_next h
    · exact ⟨_, _, rfl, by simp, by simp, .done⟩
    · exact ⟨_, _, rfl, rfl, rfl, .invalid⟩
  | setorient preset keep =>
    obtain ⟨-, rfl⟩ | ⟨-, _, _, -, -, rfl⟩ := setorient_next h
    · exact ⟨_, _, rfl, rfl, rfl, .invalid⟩
    · exact ⟨_, _, rfl, by simp, by simp, .done⟩
  | setframerate value =>
    obtain ⟨-, rfl⟩ | ⟨-, rfl⟩ := setframerate_next h
    · exact ⟨_, _, rfl, by simp, by simp, .done⟩
    · exact ⟨_, _, rfl, by simp, by simp, .invalid⟩
  | setgamma coeffs =>
    obtain ⟨-, rfl⟩ | ⟨_, _, -, rfl⟩ := setgamma_next h
    · exact ⟨_, _, rfl, by simp, by simp, .invalid⟩
    · exact ⟨_, _, rfl, by simp, by simp, .done⟩
  | setinvctl mode colorfix =>
    obtain ⟨-, rfl⟩ | ⟨_, -, rfl⟩ := setinvctl_next h
    · exact ⟨_, _, rfl, by simp, by simp, .invalid⟩
    · exact ⟨_, _, rfl, by simp, by simp, .done⟩
  | rdstatus =>
    obtain rfl := rdstatus_next h
    exact ⟨_, _, rfl, by simp, by simp, .data _ ⟨rfl, .inr (.inl ⟨rfl, readStatus_length s⟩)⟩⟩
  | wrpixels bytes =>
    obtain ⟨_, -, ⟨-, rfl⟩ | ⟨-, rfl⟩⟩ := wrpixels_next h
    · exact ⟨_, _, rfl, by simp, by simp, .done⟩
    · exact ⟨_, _, rfl, rfl, rfl, .invalid⟩
  | sleep on | display on | idle on =>
    cases h; cases on <;> exact ⟨_, _, rfl, by simp, by simp, .done⟩
  | encode r g b =>
    obtain ⟨fmt, -, rfl⟩ := encode_next h
    exact ⟨_, _, rfl, rfl, rfl, .data _ ⟨rfl, .inr (.inr ⟨r, g, b, rfl, rfl⟩)⟩⟩
  | blit sw sh x y src => obtain ⟨_, -, -, rfl⟩ := blit_next h; exact ⟨_, _, rfl, rfl, rfl, .done⟩
  | fill color => cases h; exact ⟨_, _, rfl, rfl, rfl, .done⟩
  | flush => obtain ⟨-, -, rfl⟩ := flush_next h; exact ⟨_, _, rfl, by simp, by simp, .done⟩
  | _ => cases hh

/-- Settles O42: each reply has a status with a code of its own, and data only where `ReturnsData` says. -/
theorem everyRequestAnsweredOnce : Obligations.EveryRequestAnsweredOnce := by
  intro i s t hh h
  obtain ⟨u, r, rfl, hr, hp, k⟩ := exec_replies hh h
  refine ⟨r, by simp [hr], by simp [hp], ?_⟩
  cases k with
  | done => exact ⟨.inl rfl, fun hd => absurd rfl hd, rfl⟩
  | invalid => exact ⟨.inr (.inl rfl), fun hd => absurd rfl hd, rfl⟩
  | unsupported => exact ⟨.inr (.inr rfl), fun hd => absurd rfl hd, rfl⟩
  | data _ hk =>
    obtain ⟨hs, hdata⟩ := hk
    exact ⟨.inl hs, fun _ => ⟨hs, hdata⟩, by simp [Response.bytes, Status.code, hs]⟩

/-! ## What an instruction writes whatever the panel answers -/

/-- The phase, the power flags, `unlocked` and the framebuffer (10_state.md R25, R29, R30, R33). -/
structure Written where
  phase : Phase
  sleeping : Option Bool
  idle : Option Bool
  displayOn : Option Bool
  unlocked : Bool
  fb : Memory

def State.written (s : State) : Written where
  phase := s.cs.phase
  sleeping := s.cs.sleeping
  idle := s.cs.idle
  displayOn := s.cs.displayOn
  unlocked := s.cs.unlocked
  fb := s.fb

def Written.afterReset (unlockCleared : Bool) (w : Written) : Written :=
  { w with
    phase := .reset
    sleeping := none
    idle := none
    displayOn := none
    unlocked := if unlockCleared then false else w.unlocked }

/-- What an instruction that ends leaves of them. -/
def writtenBy (s : State) : Instr → Written
  | .reset hw sw => if hw || sw then s.written.afterReset s.cfg.unlockClearedByReset else s.written
  | .init =>
    { phase := .configured, sleeping := some false, idle := some false, displayOn := some true, fb := s.fb
      unlocked := s.cfg.initUnlocks || (s.written.afterReset s.cfg.unlockClearedByReset).unlocked }
  | .setframerate _ | .setgamma _ | .setinvctl _ _ => { s.written with unlocked := true }
  | .sleep on => { s.written with sleeping := some on }
  | .idle on => { s.written with idle := some on }
  | .display on => { s.written with displayOn := some on }
  | .blit sw sh x y src =>
    { s.written with
      fb := s.cs.mv.elim s.fb fun mv =>
        s.fb.writeAll (blitWrites (fbDims s.cfg mv) sw.toNat sh.toNat x.toInt y.toInt src) }
  | .fill color => { s.written with fb := Memory.filled s.cfg.cells color }
  | .cmd01 => s.written.afterReset s.cfg.unlockClearedByReset
  | .cmd10 => { s.written with sleeping := some true }
  | .cmd11 => { s.written with sleeping := some false }
  | .cmd28 => { s.written with displayOn := some false }
  | .cmd29 => { s.written with displayOn := some true }
  | .cmd38 => { s.written with idle := some false }
  | .cmd39 => { s.written with idle := some true }
  | .wrcmd _ _ | .rdreg _ _ | .setpixfmt _ | .setwin _ _ _ | .setorient _ _ | .rdstatus | .wrpixels _ | .encode _ _ _
  | .flush | .cmd00 _ | .cmd04 _ | .cmd09 | .cmd12 _ | .cmd13 | .cmd2A _ _ | .cmd2B _ _ | .cmd2C _ | .cmd30 _ | .cmd36 _
  | .cmd3A | .cmdA3 _ | .cmdB4 _ | .cmdB6 | .cmdDA _ | .cmdDB _ | .cmdDC _ | .cmdEF | .cmdF0 _ | .cmdF1 _ | .cmdFE =>
    s.written

@[simp] theorem respond_written (r : Response) (s : State) : (respond r s).written = s.written := rfl

@[simp] theorem frameWrite_written (op : Byte) (ps : List Byte) (s : State) :
    (frameWrite op ps s).written = s.written := by
  simp [State.written]

@[simp] theorem frameRead_written (op : Byte) (n : Nat) (s : State) : (frameRead op n s).2.written = s.written := by
  simp [State.written]

@[simp] theorem readStatus_written (s : State) : (readStatus s).2.written = s.written := by
  simp [State.written]

@[simp] theorem setFormat16_written (s : State) : (setFormat16 s).written = s.written := by
  simp [State.written]

@[simp] theorem writeOrientation_written (m : Byte) (s : State) : (writeOrientation m s).written = s.written := by
  simp [State.written]

@[simp] theorem writeWindow_written (axis : Axis) (a b : Half) (s : State) :
    (writeWindow axis a b s).written = s.written := by
  cases axis <;> simp [State.written]

@[simp] theorem sendPreset_written (o : Orientation) (keep : Bool) (s : State) :
    (sendPreset o keep s).written = s.written := by
  cases keep <;> simp [sendPreset, writeFullWindow]

@[simp] theorem ensureUnlocked_written (s : State) :
    (ensureUnlocked s).written = { s.written with unlocked := true } := by
  simp [State.written, ensureUnlocked_cs]

@[simp] theorem softwareReset_written (s : State) :
    (softwareReset s).written = s.written.afterReset s.cfg.unlockClearedByReset := by
  simp [State.written, Written.afterReset]

@[simp] theorem hardwareReset_written (s : State) :
    (hardwareReset s).written = s.written.afterReset s.cfg.unlockClearedByReset := by
  simp [State.written, Written.afterReset]

theorem exec_written {i : Instr} {s t : State} (h : exec i s = .next t) : t.written = writtenBy s i := by
  cases i with
  | reset hw sw => cases h; cases hw <;> cases sw <;> simp [writtenBy, Written.afterReset]
  | wrcmd op ps => obtain ⟨-, rfl⟩ := wrcmd_next h; simp [writtenBy]
  | rdreg op n => obtain ⟨-, rfl⟩ := rdreg_next h; simp [writtenBy]
  | init =>
    cases h
    cases hu : s.cfg.initUnlocks <;> simp [writtenBy, State.written, Written.afterReset, ensureUnlocked_cs, hu]
  | setpixfmt fmt => obtain ⟨-, rfl⟩ | ⟨-, rfl⟩ := setpixfmt_next h <;> simp [writtenBy]
  | setwin axis start stop => obtain ⟨_, -, ⟨-, rfl⟩ | ⟨-, rfl⟩⟩ := setwin_next h <;> simp [writtenBy]
  | setorient preset keep => obtain ⟨-, rfl⟩ | ⟨-, _, _, -, -, rfl⟩ := setorient_next h <;> simp [writtenBy]
  | setframerate value => obtain ⟨-, rfl⟩ | ⟨-, rfl⟩ := setframerate_next h <;> simp [writtenBy]
  | setgamma coeffs => obtain ⟨-, rfl⟩ | ⟨_, _, -, rfl⟩ := setgamma_next h <;> simp [writtenBy]
  | setinvctl mode colorfix => obtain ⟨-, rfl⟩ | ⟨_, -, rfl⟩ := setinvctl_next h <;> simp [writtenBy]
  | rdstatus => obtain rfl := rdstatus_next h; simp [writtenBy]
  | wrpixels bytes => obtain ⟨_, -, ⟨-, rfl⟩ | ⟨-, rfl⟩⟩ := wrpixels_next h <;> simp [writtenBy]
  | encode r g b => obtain ⟨_, -, rfl⟩ := encode_next h; simp [writtenBy]
  | blit sw sh x y src => obtain ⟨mv, hm, -, rfl⟩ := blit_next h; simp [writtenBy, State.written, hm]
  | flush => obtain ⟨-, -, rfl⟩ := flush_next h; simp [writtenBy]
  | sleep on | display on | idle on => cases h; cases on <;> simp [writtenBy, State.written]
  | cmd09 => obtain rfl := cmd09_next h; simp [writtenBy]
  | fill | cmd10 | cmd11 | cmd28 | cmd29 | cmd38 | cmd39 => cases h; simp [writtenBy, State.written]
  | cmd00 | cmd01 | cmd04 | cmd12 | cmd13 | cmd2A | cmd2B | cmd2C | cmd30 | cmd36 | cmd3A | cmdA3 | cmdB4 | cmdB6 | cmdDA
  | cmdDB | cmdDC | cmdEF | cmdF0 | cmdF1 | cmdFE =>
    cases h; simp [writtenBy]

theorem exec_phase {i : Instr} {s t : State} (h : exec i s = .next t) : t.cs.phase = (writtenBy s i).phase :=
  congrArg Written.phase (exec_written h)

theorem exec_sleeping {i : Instr} {s t : State} (h : exec i s = .next t) : t.cs.sleeping = (writtenBy s i).sleeping :=
  congrArg Written.sleeping (exec_written h)

theorem exec_idle {i : Instr} {s t : State} (h : exec i s = .next t) : t.cs.idle = (writtenBy s i).idle :=
  congrArg Written.idle (exec_written h)

theorem exec_displayOn {i : Instr} {s t : State} (h : exec i s = .next t) :
    t.cs.displayOn = (writtenBy s i).displayOn := congrArg Written.displayOn (exec_written h)

theorem exec_unlocked {i : Instr} {s t : State} (h : exec i s = .next t) : t.cs.unlocked = (writtenBy s i).unlocked :=
  congrArg Written.unlocked (exec_written h)

theorem exec_fb {i : Instr} {s t : State} (h : exec i s = .next t) : t.fb = (writtenBy s i).fb :=
  congrArg Written.fb (exec_written h)

theorem exec_inverted {i : Instr} {s t : State} (h : exec i s = .next t) : t.cs.inverted = s.cs.inverted :=
  (exec_pieces h).keeps (fun u => u.cs.inverted = s.cs.inverted) (fun _ _ ha k => k.inverted.trans ha) rfl

/-! ## Who writes the framebuffer, `unlocked`, the phase and the power flags -/

/-- Settles O47: read off `writtenBy`. -/
theorem framebufferWriters : Obligations.FramebufferWriters := by
  intro i s t h hblit hfill
  rw [exec_fb h]
  cases i with
  | blit sw sh x y src => exact absurd rfl (hblit sw sh x y src)
  | fill color => exact absurd rfl (hfill color)
  | reset hw sw => cases hw <;> cases sw <;> rfl
  | _ => rfl

theorem writtenBy_keeps_unlocked {s : State} (hc : s.cfg.unlockClearedByReset = false) (hs : s.cs.unlocked = true)
    (i : Instr) : (writtenBy s i).unlocked = true := by
  have hw : s.written.unlocked = true := hs
  have hr : (s.written.afterReset s.cfg.unlockClearedByReset).unlocked = true := by simp [Written.afterReset, hc, hw]
  cases i with
  | reset hw' sw => cases hw' <;> cases sw <;> assumption
  | cmd01 => exact hr
  | init => simp [writtenBy, hr]
  | setframerate | setgamma | setinvctl => rfl
  | _ => exact hw

theorem writtenBy_sets_unlocked {s : State} {i : Instr} (hs : s.cs.unlocked = false)
    (h : (writtenBy s i).unlocked = true) : isPrivileged i = true ∨ i = .init := by
  have hw : s.written.unlocked = false := hs
  cases i with
  | init => exact .inr rfl
  | setframerate | setgamma | setinvctl => exact .inl rfl
  | reset hw' sw => cases hw' <;> cases sw <;> simp [writtenBy, Written.afterReset, hw] at h
  | cmd01 => simp [writtenBy, Written.afterReset, hw] at h
  | _ => exact absurd (hw.symm.trans h) Bool.false_ne_true

/-- Settles O48: read off `writtenBy`. -/
theorem unlockedWriters : Obligations.UnlockedWriters := by
  intro i s t h
  rw [exec_unlocked h]
  exact ⟨fun hc hs => writtenBy_keeps_unlocked hc hs i, fun hs => writtenBy_sets_unlocked hs⟩

/-- Settles O49: read off `writtenBy`. -/
theorem phaseWriters : Obligations.PhaseWriters := by
  intro i s t hh h
  rw [exec_phase h]
  refine ⟨?_, ?_, fun hinit hreset => ?_⟩
  · rintro rfl; rfl
  · rintro hw sw rfl; cases hw <;> cases sw <;> rfl
  · cases i with
    | init => exact absurd rfl hinit
    | reset hw sw => exact absurd rfl (hreset hw sw)
    | cmd01 => cases hh
    | _ => rfl

/-- Settles O50: read off `writtenBy`, and no piece writes `inverted`. -/
theorem powerFlagWriters : Obligations.PowerFlagWriters := by
  intro i s t hh h
  refine ⟨exec_inverted h, fun hinit hreset => ?_⟩
  rw [exec_sleeping h, exec_idle h, exec_displayOn h]
  cases i with
  | init => exact absurd rfl hinit
  | reset hw sw => exact absurd rfl (hreset hw sw)
  | sleep on => exact ⟨fun hn => absurd rfl (hn on), fun _ => rfl, fun _ => rfl⟩
  | idle on => exact ⟨fun _ => rfl, fun hn => absurd rfl (hn on), fun _ => rfl⟩
  | display on => exact ⟨fun _ => rfl, fun _ => rfl, fun hn => absurd rfl (hn on)⟩
  | cmd01 | cmd10 | cmd11 | cmd28 | cmd29 | cmd38 | cmd39 => cases hh
  | _ => exact ⟨fun _ => rfl, fun _ => rfl, fun _ => rfl⟩

/-! ## Power-on -/

/-- Settles O1: the reset state is R40's table, field by field. -/
theorem powerOnState : Obligations.PowerOnState :=
  ⟨⟨rfl, rfl, rfl, rfl, rfl, rfl⟩, rfl, fun _ => rfl, rfl, rfl, rfl⟩

/-- The type of the two open resolutions is the bound that `Config.wf` puts on them (92_eei_decisions.md D48). -/
theorem atReset_wf : Config.atReset.wf = true := by
  have hw := Config.openPanelW.isLt
  have hh := Config.openPanelH.isLt
  have hl : StatusLayout.default.wf = true := by decide
  simp [Config.wf, Config.atReset, hl]
  omega

theorem reset_inv : State.reset.Inv where
  cfg := atReset_wf
  pins := rfl
  colWindow := rfl
  rowWindow := rfl
  inverted := rfl
  fbCanonical := rfl
  fbInside := by simp [State.reset]
  inflight := rfl
  counted := rfl

/-- Settles O2: the trace is empty and every mirrored field is UNSET. -/
theorem powerOnMeetsInvariants : Obligations.PowerOnMeetsInvariants :=
  ⟨reset_inv, ⟨rfl, rfl, rfl⟩, ⟨rfl, rfl, rfl, rfl, rfl, rfl, rfl, rfl, fun _ => rfl⟩, ⟨rfl, rfl, rfl, rfl, rfl, rfl⟩,
    fun h => by cases h⟩

/-! ## The step and the marks -/

/-- An unmarked state runs what is pending, if that decodes. -/
theorem step_of_pending {s : State} {m : Message} {i : Instr} (hf : s.faultMark = none) (hr : s.refusedMark = false)
    (hp : s.pending = some m) (hd : decode m = some i) : step s = exec i (s.take m) := by
  simp [step, hf, hr, hp, hd]

/-- Settles O3: an empty slot leaves the first request pending, a filled one its command. -/
theorem stepRunsDecodedInstruction : Obligations.StepRunsDecodedInstruction := by
  intro s i bytes hf hr
  constructor
  · intro rest hi hq hd
    have hp : s.pending = some (.request bytes) := by simp [State.pending, hi, hq]
    rw [step_of_pending hf hr hp hd]
    simp [State.take, hq]
  · intro hi hd
    have hp : s.pending = some (.command bytes) := by simp [State.pending, hi]
    rw [step_of_pending hf hr hp hd]
    rfl

theorem runStep_unmarked {s : State} (hf : s.faultMark = none) (hr : s.refusedMark = false) :
    runStep s = s.record (step s) := by
  simp [runStep, hf, hr]

theorem runStep_marked {s : State} (h : s.faultMark.isSome = true ∨ s.refusedMark = true) : runStep s = s := by
  simp [runStep, h]

/-- Settles O5: `runStep` records the outcome of an unmarked state, and a step that answers a next state starts
unmarked. -/
theorem marksStopTheBlock : Obligations.MarksStopTheBlock := by
  refine ⟨fun s r hf hr h => ?_, fun s r hf hr h => ?_, fun s hm => ⟨runStep_marked hm, fun t h => ?_⟩⟩
  · rw [runStep_unmarked hf hr, h]; rfl
  · rw [runStep_unmarked hf hr, h]; rfl
  · obtain ⟨hf, hr, -⟩ := step_next h
    simp [hf, hr] at hm

end Sys2Proof.Machine

/-! PROOFS. 20_memory.md: the bus trace only grows, and every event of it stands at legal levels. -/

namespace Sys2Proof.Machine

/-! ## Taking a message touches neither the levels nor a mark -/

@[simp] theorem take_pins (m : Message) (s : State) : (s.take m).pins = s.pins := by cases m <;> rfl
@[simp] theorem take_faultMark (m : Message) (s : State) : (s.take m).faultMark = s.faultMark := by cases m <;> rfl
@[simp] theorem take_refusedMark (m : Message) (s : State) : (s.take m).refusedMark = s.refusedMark := by cases m <;> rfl

/-- Settles O51: an instruction's pieces append their events, and write neither the parameters nor a mark. -/
theorem traceOnlyGrows : Obligations.TraceOnlyGrows := by
  intro s t h
  obtain ⟨-, -, ⟨rfl, -⟩ | ⟨m, i, -, -, he⟩⟩ := step_next h
  · exact ⟨List.prefix_rfl, rfl, rfl, rfl⟩
  · obtain ⟨es, hes⟩ := (exec_pieces he).emitted
    have htrace : s.trace ++ es = t.trace := by simpa using hes.trace.symm
    exact ⟨⟨es, htrace⟩, by simpa using hes.cfg, by simpa using hes.faultMark, by simpa using hes.refusedMark⟩

/-! ## Events that may start at idle levels and lead back to them (20_memory.md R64, 10_state.md R24) -/

/-- From idle levels each of the events is legal where it stands, and the levels after them are those before. -/
structure Orderly (es : List Event) : Prop where
  legal : ∀ p : Pins, p.idle = true → traceLegal p es = true
  levels : ∀ p : Pins, p.idle = true → levelsAfter p es = p

theorem Orderly.nil : Orderly [] := ⟨fun _ _ => rfl, fun _ _ => rfl⟩

theorem Orderly.append {as bs : List Event} (ha : Orderly as) (hb : Orderly bs) : Orderly (as ++ bs) where
  legal p hp := by rw [traceLegal_append, ha.legal p hp, ha.levels p hp, hb.legal p hp]; rfl
  levels p hp := by rw [levelsAfter_append, ha.levels p hp, hb.levels p hp]

theorem orderly_writeFrame (op : Byte) (params : List Byte) : Orderly (writeFrame op params) :=
  ⟨fun p hp => traceLegal_writeFrame p hp op params, fun p hp => levelsAfter_writeFrame p hp op params⟩

theorem orderly_readFrame (op : Byte) (bytes : List Byte) : Orderly (readFrame op bytes) :=
  ⟨fun p hp => traceLegal_readFrame p hp op bytes, fun p hp => levelsAfter_readFrame p hp op bytes⟩

theorem orderly_delay (ms : Nat) : Orderly [.delay ms] := ⟨fun _ _ => rfl, fun _ _ => rfl⟩

/-- A hardware reset moves RESETn alone, with CSn high. -/
theorem orderly_hwResetEvents : Orderly hwResetEvents where
  legal p hp := by rw [(idle_iff p).1 hp]; rfl
  levels p hp := by rw [(idle_iff p).1 hp]; rfl

/-- The unlock sequence is three write frames. -/
theorem orderly_unlockEvents : Orderly unlockEvents :=
  unlockEvents_eq ▸
    ((orderly_writeFrame 0xFE []).append (orderly_writeFrame 0xEF [])).append (orderly_writeFrame 0xB6 [0x07])

/-! ## Legality -/

/-- What a piece emits are whole frames, delays and resets. -/
theorem Piece.emits_orderly {host reads : Bool} {s t : State} (k : Piece host reads s t) :
    ∃ es, Emitted s t es ∧ Orderly es := by
  cases k with
  | softwareReset => exact ⟨_, softwareReset_emitted s, (orderly_writeFrame _ _).append (orderly_delay _)⟩
  | hardwareReset => exact ⟨_, hardwareReset_emitted s, orderly_hwResetEvents⟩
  | sleepIn => exact ⟨_, sleepIn_emitted s, orderly_writeFrame _ _⟩
  | sleepOut => exact ⟨_, sleepOut_emitted s, (orderly_writeFrame _ _).append (orderly_delay _)⟩
  | displayOff op => exact ⟨_, displayOff_emitted op s, orderly_writeFrame _ _⟩
  | displayOn => exact ⟨_, displayOn_emitted s, orderly_writeFrame _ _⟩
  | window axis a b => exact ⟨_, writeWindow_emitted axis a b s, orderly_writeFrame _ _⟩
  | orientation m => exact ⟨_, writeOrientation_emitted m s, orderly_writeFrame _ _⟩
  | idleOff => exact ⟨_, idleOff_emitted s, orderly_writeFrame _ _⟩
  | idleOn => exact ⟨_, idleOn_emitted s, orderly_writeFrame _ _⟩
  | format => exact ⟨_, setFormat16_emitted s, orderly_writeFrame _ _⟩
  | status =>
    obtain ⟨_, _, _, _, _, -, -, he, -⟩ := readStatus_draws s
    exact ⟨_, he, orderly_readFrame _ _⟩
  | unlock =>
    refine ⟨_, ensureUnlocked_emitted s, ?_⟩
    split
    · exact .nil
    · exact orderly_unlockEvents
  | write op ps => exact ⟨_, frameWrite_emitted op ps s, orderly_writeFrame _ _⟩
  | read op n => exact ⟨_, frameRead_emitted op n s, orderly_readFrame _ _⟩
  | fb | configured | response => exact ⟨[], ⟨by simp, id, rfl, rfl, rfl, rfl, rfl⟩, .nil⟩

/-- Orderly events after a legal trace leave a legal trace: idle levels are the same levels but for D[7:0]. -/
theorem State.TraceInv.extend {s t : State} {es : List Event} (h : s.TraceInv) (he : Emitted s t es)
    (ho : Orderly es) : t.TraceInv := by
  have hidle : t.pins.idle = true := he.pins h.idle
  have hsame : ({ t.pins with d := Pins.reset.d } : Pins) = { s.pins with d := Pins.reset.d } := by
    rw [(idle_iff _).1 hidle, (idle_iff _).1 h.idle]
  have hstart : ({ s.pins with d := Pins.reset.d } : Pins).idle = true := h.idle
  refine ⟨?_, ?_, hidle⟩
  · rw [he.trace, traceLegal_append, h.legal, h.levels, ho.legal _ hstart]; rfl
  · rw [he.trace, levelsAfter_append, h.levels, ho.levels _ hstart, hsame]

theorem Piece.keeps_traceInv {host reads : Bool} {s t : State} (k : Piece host reads s t) (h : s.TraceInv) :
    t.TraceInv := by
  obtain ⟨es, he, ho⟩ := k.emits_orderly
  exact h.extend he ho

theorem State.TraceInv.take {s : State} (h : s.TraceInv) (m : Message) : (s.take m).TraceInv :=
  ⟨by simpa using h.legal, by simpa using h.levels, by simpa using h.idle⟩

/-- Settles O53: a step waits or runs an instruction, and each of its pieces appends orderly events. -/
theorem stepKeepsTraceLegal : Obligations.StepKeepsTraceLegal := by
  intro s t hs h
  obtain ⟨-, -, ⟨rfl, -⟩ | ⟨m, i, -, -, he⟩⟩ := step_next h
  · exact hs
  · exact (exec_pieces he).keeps State.TraceInv (fun _ _ ha k => k.keeps_traceInv ha) (hs.take m)

end Sys2Proof.Machine

/-! PROOFS. 30_encoding.md: decoding and encoding agree, which requests and meanings are refused, and the bus commands. -/

namespace Sys2Proof

open Sys2Proof.Machine

/-! ## Fields -/

@[simp] theorem Parse.andThen_some {α β : Type} (a : α) (rest : List Byte) (f : α → List Byte → Parse β) :
    Parse.andThen (some (a, rest)) f = f a rest := rfl

@[simp] theorem Parse.andThen_none {α β : Type} (f : α → List Byte → Parse β) : Parse.andThen none f = none := rfl

@[simp] theorem Parse.as_eq_none {α β : Type} (p : Parse α) (f : α → β) : p.as f = none ↔ p = none := by
  obtain _ | ⟨a, rest⟩ := p <;> simp [Parse.as]

section Fields

variable {α : Type} {take : List Byte → Parse α} {bytesOf : α → List Byte} {ok : α → Prop}

/-- A parser of one field reads back exactly what `bytesOf` writes, for the values the field can carry. -/
def Reads (take : List Byte → Parse α) (bytesOf : α → List Byte) (ok : α → Prop) : Prop :=
  ∀ b a rest, take b = some (a, rest) ↔ b = bytesOf a ++ rest ∧ ok a

theorem reads_byte : Reads takeByte (fun a => [a]) fun _ => True := by simp [Reads, takeByte_eq_some]
theorem reads_half : Reads takeHalf Half.bytes fun _ => True := by simp [Reads, takeHalf_eq_some]
theorem reads_word : Reads takeWord Word.bytes fun _ => True := by simp [Reads, takeWord_eq_some]
theorem reads_flag : Reads takeFlag (fun f => [flagByte f]) fun _ => True := by simp [Reads, takeFlag_eq_some]
theorem reads_axis : Reads takeAxis (fun axis => [axis.byte]) fun _ => True := by simp [Reads, takeAxis_eq_some]
theorem reads_resetFlags : Reads takeResetFlags (fun x => [resetFlagsByte x.1 x.2]) fun _ => True := by
  simp [Reads, takeResetFlags_eq_some]
theorem reads_orientation : Reads takeOrientation (fun o => [o.byte]) fun _ => True := by
  simp [Reads, takeOrientation_eq_some]
theorem reads_list : Reads takeList listBytes fun l => listFits l = true := takeList_eq_some
theorem reads_words (n : Nat) : Reads (takeMany takeWord n) (·.flatMap Word.bytes) fun l => l.length = n :=
  takeMany_eq_some takeWord Word.bytes takeWord_eq_some n
theorem reads_halves (n : Nat) : Reads (takeMany takeHalf n) (·.flatMap Half.bytes) fun l => l.length = n :=
  takeMany_eq_some takeHalf Half.bytes takeHalf_eq_some n

theorem Reads.andThen_bytes {β : Type} (hr : Reads take bytesOf ok) {a : α} (ha : ok a)
    (f : α → List Byte → Parse β) (rest : List Byte) : (take (bytesOf a ++ rest)).andThen f = f a rest := by
  rw [(hr _ a rest).2 ⟨rfl, ha⟩, Parse.andThen_some]

theorem Reads.as_bytes {β : Type} (hr : Reads take bytesOf ok) {a : α} (ha : ok a) (f : α → β) :
    (take (bytesOf a)).as f = some (f a, []) := by
  have h := hr.andThen_bytes ha (fun a rest => some (f a, rest)) []
  rwa [List.append_nil] at h

end Fields

/-! ## Decoding what was encoded (R81, R82, R84) -/

theorem decode_request {op : Byte} {bytes : List Byte} {parse : List Byte → Parse Instr} {i : Instr}
    (hl : requestRows.lookup op = some parse) (hp : parse bytes = some (i, [])) :
    decode (.request (op :: bytes)) = some i := by
  simp [decode, decodeRequest, decodeRows, hl, hp]

theorem decode_command {op : Byte} {bytes : List Byte} {parse : List Byte → Parse Instr} {i : Instr}
    (hl : commandRows.lookup op = some parse) (hp : parse bytes = some (i, [])) :
    decode (.command (op :: bytes)) = some i := by
  simp [decode, decodeCommand, decodeRows, hl, hp]

theorem takeBlit_bytes (sw sh x y : Half) (src : List Pixel) (h : src.length = sw.toNat * sh.toNat) :
    takeBlit (Half.bytes sw ++ Half.bytes sh ++ Half.bytes x ++ Half.bytes y ++ src.flatMap Half.bytes) =
      some (.blit sw sh x y src, []) := by
  simp only [takeBlit, List.append_assoc, reads_half.andThen_bytes trivial]
  exact (reads_halves _).as_bytes h _

/-- Settles O6: the op code finds the instruction's row, and the row's parsers read back what was written. -/
theorem decodeEncodeAgree : Obligations.DecodeEncodeAgree := by
  intro i hwf
  cases i with
  | init | rdstatus | flush => exact decode_request rfl rfl
  | reset hw sw => exact decode_request rfl (reads_resetFlags.as_bytes (a := (hw, sw)) trivial _)
  | setpixfmt | encode => exact decode_request rfl rfl
  | setframerate => exact decode_request rfl (reads_word.as_bytes trivial _)
  | sleep | display | idle => exact decode_request rfl (reads_flag.as_bytes trivial _)
  | fill => exact decode_request rfl (reads_half.as_bytes trivial _)
  | rdreg => exact decode_request rfl (reads_word.as_bytes trivial _)
  | setorient => exact decode_request rfl (reads_flag.as_bytes trivial _)
  | setinvctl => exact decode_request rfl ((reads_word.andThen_bytes trivial _ _).trans (reads_word.as_bytes trivial _))
  | setwin axis =>
    exact decode_request rfl ((reads_axis.andThen_bytes (a := axis) trivial _ _).trans
      ((reads_word.andThen_bytes trivial _ _).trans (reads_word.as_bytes trivial _)))
  | wrcmd => exact decode_request rfl (reads_list.as_bytes hwf _)
  | wrpixels => exact decode_request rfl (reads_list.as_bytes hwf _)
  | setgamma => exact decode_request rfl ((reads_words 29).as_bytes (of_decide_eq_true hwf) _)
  | blit sw sh x y src => exact decode_request rfl (takeBlit_bytes sw sh x y src (of_decide_eq_true hwf))
  | cmd00 | cmd04 | cmdDA | cmdDB | cmdDC => exact decode_command rfl (reads_word.as_bytes trivial _)
  | cmd2A | cmd2B =>
    exact decode_command rfl ((reads_half.andThen_bytes trivial _ _).trans (reads_half.as_bytes trivial _))
  | cmd36 => exact decode_command rfl (reads_orientation.as_bytes trivial _)
  | cmd12 | cmd2C | cmd30 | cmdB4 | cmdF0 | cmdF1 => exact decode_command rfl (reads_list.as_bytes hwf _)
  | cmd01 | cmd09 | cmd10 | cmd11 | cmd13 | cmd28 | cmd29 | cmd38 | cmd39 | cmd3A | cmdA3 | cmdB6 | cmdEF | cmdFE =>
    exact decode_command rfl rfl

/-! ## Encoding what was decoded (R81, R82, R84) -/

section EncodesBack

variable {α : Type} {take : List Byte → Parse α} {bytesOf : α → List Byte} {ok : α → Prop}
  {wrap : List Byte → Message} {lead : List Byte}

/-- Whatever `parse` reads after the bytes `lead`, those and the bytes it took are the encoding of the instruction it
answers, and that is well-formed. `wrap` is the format. -/
def EncodesBack (wrap : List Byte → Message) (lead : List Byte) (parse : List Byte → Parse Instr) : Prop :=
  ∀ b i rest, parse b = some (i, rest) → ∃ taken, b = taken ++ rest ∧ encode i = wrap (lead ++ taken) ∧ i.wf = true

/-- Nothing is left to read. -/
theorem EncodesBack.done {i : Instr} (he : encode i = wrap lead) (hw : i.wf = true) :
    EncodesBack wrap lead fun b => some (i, b) := by
  rintro b j rest ⟨⟩
  exact ⟨[], rfl, by rw [he, List.append_nil], hw⟩

/-- One field more is read. -/
theorem EncodesBack.andThen {f : α → List Byte → Parse Instr} (hr : Reads take bytesOf ok)
    (hf : ∀ a, ok a → EncodesBack wrap (lead ++ bytesOf a) (f a)) :
    EncodesBack wrap lead fun b => (take b).andThen f := by
  intro b i rest h
  obtain ⟨a, r, hb, hi⟩ := (Parse.andThen_eq_some _ _ _).1 h
  obtain ⟨rfl, ha⟩ := (hr _ _ _).1 hb
  obtain ⟨taken, rfl, he, hw⟩ := hf a ha r i rest hi
  exact ⟨bytesOf a ++ taken, by rw [List.append_assoc], by rw [he, List.append_assoc], hw⟩

/-- The last field is read. -/
theorem EncodesBack.as {f : α → Instr} (hr : Reads take bytesOf ok)
    (he : ∀ a, encode (f a) = wrap (lead ++ bytesOf a)) (hw : ∀ a, ok a → (f a).wf = true) :
    EncodesBack wrap lead fun b => (take b).as f :=
  .andThen hr fun a ha => .done (he a) (hw a ha)

end EncodesBack

/-- Row by row: the fields each reads, in order. -/
theorem requestRows_encodeBack : ∀ row ∈ requestRows, EncodesBack .request [row.1] row.2 := by
  simp only [requestRows, List.cons_append, List.nil_append, List.forall_mem_cons]
  exact ⟨
    .as reads_resetFlags (fun _ => rfl) fun _ _ => rfl,
    .andThen reads_byte fun _ _ => .as reads_list (fun _ => rfl) fun _ hl => hl,
    .andThen reads_byte fun _ _ => .as reads_word (fun _ => rfl) fun _ _ => rfl,
    .done rfl rfl,
    .as reads_byte (fun _ => rfl) fun _ _ => rfl,
    .andThen reads_axis fun _ _ => .andThen reads_word fun _ _ => .as reads_word (fun _ => rfl) fun _ _ => rfl,
    .andThen reads_byte fun _ _ => .as reads_flag (fun _ => rfl) fun _ _ => rfl,
    .as reads_word (fun _ => rfl) fun _ _ => rfl,
    .as (reads_words 29) (fun _ => rfl) fun _ => decide_eq_true,
    .andThen reads_word fun _ _ => .as reads_word (fun _ => rfl) fun _ _ => rfl,
    .done rfl rfl,
    .as reads_list (fun _ => rfl) fun _ hl => hl,
    .as reads_flag (fun _ => rfl) fun _ _ => rfl,
    .as reads_flag (fun _ => rfl) fun _ _ => rfl,
    .as reads_flag (fun _ => rfl) fun _ _ => rfl,
    .andThen reads_byte fun _ _ => .andThen reads_byte fun _ _ => .as reads_byte (fun _ => rfl) fun _ _ => rfl,
    .andThen reads_half fun _ _ => .andThen reads_half fun _ _ => .andThen reads_half fun _ _ =>
      .andThen reads_half fun _ _ => .as (reads_halves _) (fun _ => rfl) fun _ => decide_eq_true,
    .as reads_half (fun _ => rfl) fun _ _ => rfl,
    .done rfl rfl,
    List.forall_mem_nil _⟩

/-- Row by row, likewise. -/
theorem commandRows_encodeBack : ∀ row ∈ commandRows, EncodesBack .command [row.1] row.2 := by
  simp only [commandRows, List.cons_append, List.nil_append, List.forall_mem_cons]
  exact ⟨
    .as reads_word (fun _ => rfl) fun _ _ => rfl,
    .done rfl rfl,
    .as reads_word (fun _ => rfl) fun _ _ => rfl,
    .done rfl rfl,
    .done rfl rfl,
    .done rfl rfl,
    .as reads_list (fun _ => rfl) fun _ hl => hl,
    .done rfl rfl,
    .done rfl rfl,
    .done rfl rfl,
    .andThen reads_half fun _ _ => .as reads_half (fun _ => rfl) fun _ _ => rfl,
    .andThen reads_half fun _ _ => .as reads_half (fun _ => rfl) fun _ _ => rfl,
    .as reads_list (fun _ => rfl) fun _ hl => hl,
    .as reads_list (fun _ => rfl) fun _ hl => hl,
    .as reads_orientation (fun _ => rfl) fun _ _ => rfl,
    .done rfl rfl,
    .done rfl rfl,
    .done rfl rfl,
    .as reads_byte (fun _ => rfl) fun _ _ => rfl,
    .as reads_list (fun _ => rfl) fun _ hl => hl,
    .done rfl rfl,
    .as reads_word (fun _ => rfl) fun _ _ => rfl,
    .as reads_word (fun _ => rfl) fun _ _ => rfl,
    .as reads_word (fun _ => rfl) fun _ _ => rfl,
    .done rfl rfl,
    .as reads_list (fun _ => rfl) fun _ hl => hl,
    .as reads_list (fun _ => rfl) fun _ hl => hl,
    .done rfl rfl,
    List.forall_mem_nil _⟩

/-- What a table whose rows encode back decodes with no byte left over is the encoding of its instruction. -/
theorem encode_of_decodeRows {wrap : List Byte → Message} {rows : List Row}
    (hrows : ∀ row ∈ rows, EncodesBack wrap [row.1] row.2) {bytes : List Byte} {i : Instr}
    (h : decodeRows rows bytes = some (i, [])) : encode i = wrap bytes ∧ i.wf = true := by
  obtain ⟨op, rest, parse, rfl, hm, hp⟩ := decodeRows_eq_some h
  obtain ⟨taken, rfl, he, hw⟩ := hrows _ hm rest i [] hp
  exact ⟨by rw [he, List.append_nil]; rfl, hw⟩

/-- Settles O7: every row of the two tables encodes back. -/
theorem encodeDecodeAgree : Obligations.EncodeDecodeAgree :=
  fun _ _ => ⟨encode_of_decodeRows requestRows_encodeBack, encode_of_decodeRows commandRows_encodeBack⟩

end Sys2Proof

namespace Sys2Proof

open Sys2Proof.Machine

/-! ## Undefined requests (R80, R81, R84, R130) -/

section Width

variable {α β : Type} {take : List Byte → Parse α} {n m : Nat}

/-- A parser of a fixed layout of `n` bytes: it fails on fewer, and takes just those. -/
def Width (take : List Byte → Parse α) (n : Nat) : Prop :=
  ∀ b, if b.length < n then take b = none else ∃ a, take b = some (a, b.drop n)

theorem Width.eq_none_iff (h : Width take n) (b : List Byte) : take b = none ↔ b.length < n := by
  have hb := h b
  split at hb
  next hlt => simp [hb, hlt]
  next hge => obtain ⟨a, ha⟩ := hb; simp [ha, hge]

theorem Width.done (a : α) : Width (fun b => some (a, b)) 0 := by simp [Width]

theorem Width.andThen {f : α → List Byte → Parse β} (h : Width take n) (hf : ∀ a, Width (f a) m) :
    Width (fun b => (take b).andThen f) (n + m) := by
  intro b
  have hb := h b
  split at hb
  next hlt => simp [hb, Nat.lt_add_right m hlt]
  next hge =>
    obtain ⟨a, ha⟩ := hb
    have hr := hf a (b.drop n)
    rw [List.length_drop, List.drop_drop] at hr
    simpa only [ha, Parse.andThen_some, show b.length - n < m ↔ b.length < n + m by omega] using hr

theorem Width.as (h : Width take n) (f : α → β) : Width (fun b => (take b).as f) n :=
  h.andThen fun a => .done (f a)

theorem Width.many (h : Width take n) (k : Nat) : Width (takeMany take k) (k * n) := by
  induction k with
  | zero => rw [Nat.zero_mul]; exact .done []
  | succ k ih =>
    have hs : Width (takeMany take (k + 1)) (n + k * n) := h.andThen fun a => ih.as (a :: ·)
    rwa [Nat.succ_mul, Nat.add_comm (k * n)]

theorem width_byte : Width takeByte 1
  | [] => rfl
  | a :: _ => ⟨a, rfl⟩

theorem width_half : Width takeHalf 2
  | [] | [_] => rfl
  | a :: b :: rest => by simp [takeHalf]

theorem width_word : Width takeWord 4
  | [] | [_] | [_, _] | [_, _, _] => rfl
  | a :: b :: c :: d :: rest => by simp [takeWord]

end Width

/-- The length field counts the bytes after it. -/
theorem takeList_eq_none (b : List Byte) :
    takeList b = none ↔ b.length < 4 + if 4 ≤ b.length then fieldNat (b.take 4) else 0 := by
  match b with
  | [] | [_] | [_, _] | [_, _, _] => simp [takeList, takeWord]
  | p :: q :: r :: s :: rest =>
    simp only [takeList, takeWord, Parse.andThen_some, ← fieldNat_word, ite_eq_right_iff, reduceCtorEq, imp_false, not_le,
      List.length_cons, le_add_iff_nonneg_left, zero_le, ↓reduceIte, List.take_succ_cons, List.take_zero]
    omega

/-- BLIT's list has two bytes for each of its sw x sh pixels. -/
theorem takeBlit_eq_none (b : List Byte) :
    takeBlit b = none ↔
      b.length < 8 + if 4 ≤ b.length then 2 * (fieldNat (b.take 2) * fieldNat ((b.drop 2).take 2)) else 0 := by
  match b with
  | [] | [_] | [_, _] | [_, _, _] => simp [takeBlit, takeHalf]
  | p :: q :: r :: s :: rest =>
    have hw := (width_half.andThen fun x => width_half.andThen fun y =>
      (width_half.many ((Half.ofBytes p q).toNat * (Half.ofBytes r s).toNat)).as
        (Instr.blit (Half.ofBytes p q) (Half.ofBytes r s) x y)).eq_none_iff rest
    rw [takeBlit, takeHalf, Parse.andThen_some, takeHalf, Parse.andThen_some, hw]
    simp only [List.length_cons, le_add_iff_nonneg_left, zero_le, ↓reduceIte, List.take_succ_cons, List.take_zero,
      fieldNat_half, List.drop_succ_cons, List.drop_zero]
    omega

theorem takeFlag_eq_none (b : List Byte) : takeFlag b = none ↔ b = [] ∨ ∃ f rest, b = f :: rest ∧ f &&& 0xFE ≠ 0 := by
  cases b <;> simp [takeFlag, takeByte]

theorem takeResetFlags_eq_none (b : List Byte) :
    takeResetFlags b = none ↔ b = [] ∨ ∃ f rest, b = f :: rest ∧ f &&& 0xFC ≠ 0 := by
  cases b <;> simp [takeResetFlags, takeByte]

theorem takeAxis_eq_none (b : List Byte) : takeAxis b = none ↔ b = [] ∨ ∃ a rest, b = a :: rest ∧ 2 ≤ a.toNat := by
  cases b with
  | nil => simp [takeAxis, takeByte]
  | cons a rest =>
    have ha : a ≠ 0 ∧ a ≠ 1 ↔ 2 ≤ a.toNat := by bv_omega
    simpa [takeAxis, takeByte, ite_eq_iff] using ha

/-- R130's clauses for a request that begins with `op`. -/
theorem undefinedRequest_cons (op : Byte) (b : List Byte) :
    UndefinedRequest (op :: b) ↔ b.length + 1 < requestLength (op :: b) ∨ op ∉ hostOpCodes ∨
      (op = 0x01 ∧ ∃ f rest, b = f :: rest ∧ f &&& 0xFC ≠ 0) ∨
      (op = 0x13 ∧ ∃ p f rest, b = p :: f :: rest ∧ f &&& 0xFE ≠ 0) ∨
      (op ∈ [0x19#8, 0x1A#8, 0x1B#8] ∧ ∃ f rest, b = f :: rest ∧ f &&& 0xFE ≠ 0) ∨
      (op = 0x12 ∧ ∃ a rest, b = a :: rest ∧ 2 ≤ a.toNat) := by
  constructor
  · intro h
    cases h with
    | short _ h => exact .inl h
    | opCode _ _ h => exact .inr (.inl h)
    | resetFlags f rest h => exact .inr (.inr (.inl ⟨rfl, f, rest, rfl, h⟩))
    | orientFlags p f rest h => exact .inr (.inr (.inr (.inl ⟨rfl, p, f, rest, rfl, h⟩)))
    | onFlags _ f rest ho h => exact .inr (.inr (.inr (.inr (.inl ⟨ho, f, rest, rfl, h⟩))))
    | axis a rest h => exact .inr (.inr (.inr (.inr (.inr ⟨rfl, a, rest, rfl, h⟩))))
  · rintro (h | h | ⟨rfl, f, rest, rfl, h⟩ | ⟨rfl, p, f, rest, rfl, h⟩ | ⟨ho, f, rest, rfl, h⟩ | ⟨rfl, a, rest, rfl, h⟩)
    · exact .short _ h
    · exact .opCode _ _ h
    · exact .resetFlags f rest h
    · exact .orientFlags p f rest h
    · exact .onFlags op f rest ho h
    · exact .axis a rest h

/-- The op codes whose layout has no byte with reserved values. -/
theorem undefinedRequest_iff_short {op : Byte} (hm : op ∈ hostOpCodes)
    (hn : op ∉ [0x01#8, 0x12#8, 0x13#8, 0x19#8, 0x1A#8, 0x1B#8]) (b : List Byte) :
    UndefinedRequest (op :: b) ↔ b.length + 1 < requestLength (op :: b) := by
  simp only [List.mem_cons, List.not_mem_nil, or_false, not_or] at hn
  simp [undefinedRequest_cons, hm, hn]

/-- A row fails on just the bytes that make its request undefined. -/
def FailsOnUndefined (row : Row) : Prop := ∀ b, row.2 b = none ↔ UndefinedRequest (row.1 :: b)

theorem failsOnUndefined_of_width {op : Byte} {n : Nat} {parse : List Byte → Parse Instr} (h : Width parse n)
    (hlen : ∀ b, requestLength (op :: b) = n + 1) (hm : op ∈ hostOpCodes := by decide)
    (hn : op ∉ [0x01#8, 0x12#8, 0x13#8, 0x19#8, 0x1A#8, 0x1B#8] := by decide) :
    FailsOnUndefined (op, parse) := by
  intro b
  rw [undefinedRequest_iff_short hm hn, hlen, h.eq_none_iff]
  omega

theorem failsOnUndefined_on {op : Byte} (h : op ∈ [0x19#8, 0x1A#8, 0x1B#8]) (f : Bool → Instr) :
    FailsOnUndefined (op, fun b => (takeFlag b).as f) := by
  intro b
  fin_cases h <;> simp [takeFlag_eq_none, undefinedRequest_cons, requestLength, hostOpCodes]

theorem failsOnUndefined_reset (f : Bool × Bool → Instr) :
    FailsOnUndefined (0x01, fun b => (takeResetFlags b).as f) := by
  intro b
  simp [takeResetFlags_eq_none, undefinedRequest_cons, requestLength, hostOpCodes]

theorem failsOnUndefined_setorient :
    FailsOnUndefined (0x13, fun b => (takeByte b).andThen fun preset rest => (takeFlag rest).as (.setorient preset)) := by
  intro b
  rw [undefinedRequest_cons]
  match b with
  | [] | [_] => simp [takeByte, takeFlag, Parse.as, requestLength]
  | p :: f :: rest => simp [takeByte, takeFlag_eq_none, requestLength, hostOpCodes]

theorem failsOnUndefined_wrcmd :
    FailsOnUndefined (0x02, fun b => (takeByte b).andThen fun op rest => (takeList rest).as (.wrcmd op)) := by
  intro b
  rw [undefinedRequest_iff_short (by decide) (by decide)]
  cases b with
  | nil => simp [takeByte, requestLength]
  | cons op b =>
    have hlen : requestLength (0x02 :: op :: b) =
        6 + if 5 ≤ b.length + 1 then fieldNat (b.take 4) else 0 := rfl
    simp only [takeByte, Parse.andThen_some, Parse.as_eq_none, takeList_eq_none, List.length_cons, hlen, Nat.reduceLeDiff]
    omega

theorem failsOnUndefined_wrpixels : FailsOnUndefined (0x18, fun b => (takeList b).as .wrpixels) := by
  intro b
  have hlen : requestLength (0x18 :: b) = 5 + if 4 ≤ b.length then fieldNat (b.take 4) else 0 := rfl
  rw [undefinedRequest_iff_short (by decide) (by decide), Parse.as_eq_none, takeList_eq_none, hlen]
  omega

theorem failsOnUndefined_blit : FailsOnUndefined (0x30, takeBlit) := by
  intro b
  have hlen : requestLength (0x30 :: b) =
      9 + if 4 ≤ b.length then 2 * (fieldNat (b.take 2) * fieldNat ((b.drop 2).take 2)) else 0 := rfl
  rw [undefinedRequest_iff_short (by decide) (by decide), takeBlit_eq_none, hlen]
  omega

theorem failsOnUndefined_setwin :
    FailsOnUndefined (0x12, fun b => (takeAxis b).andThen fun axis rest =>
      (takeWord rest).andThen fun start rest => (takeWord rest).as (.setwin axis start)) := by
  intro b
  cases b with
  | nil => simp [takeAxis, takeByte, undefinedRequest_cons, requestLength]
  | cons a b =>
    cases h : takeAxis (a :: b) with
    | none =>
      have ha : 2 ≤ a.toNat := by simpa [takeAxis_eq_none] using h
      exact iff_of_true (by simp [h]) (.axis a b ha)
    | some x =>
      obtain ⟨axis, rest⟩ := x
      obtain ⟨rfl, rfl⟩ := List.cons.inj ((takeAxis_eq_some _ _ _).1 h)
      have ha : ¬ 2 ≤ axis.byte.toNat := by cases axis <;> decide
      have hw := (width_word.andThen fun start => width_word.as (Instr.setwin axis start)).eq_none_iff b
      simp [h, hw, ha, undefinedRequest_cons, requestLength, hostOpCodes, Nat.succ_lt_succ_iff]

/-- Row by row: the width of a fixed layout, or the clause for a row with a list or reserved values. -/
theorem requestRows_failOnUndefined : ∀ row ∈ requestRows, FailsOnUndefined row := by
  simp only [requestRows, List.cons_append, List.nil_append, List.forall_mem_cons]
  exact ⟨failsOnUndefined_reset _,
    failsOnUndefined_wrcmd,
    failsOnUndefined_of_width (width_byte.andThen fun _ => width_word.as _) fun _ => rfl,
    failsOnUndefined_of_width (.done _) fun _ => rfl,
    failsOnUndefined_of_width (width_byte.as _) fun _ => rfl,
    failsOnUndefined_setwin,
    failsOnUndefined_setorient,
    failsOnUndefined_of_width (width_word.as _) fun _ => rfl,
    failsOnUndefined_of_width ((width_word.many 29).as _) fun _ => rfl,
    failsOnUndefined_of_width (width_word.andThen fun _ => width_word.as _) fun _ => rfl,
    failsOnUndefined_of_width (.done _) fun _ => rfl,
    failsOnUndefined_wrpixels,
    failsOnUndefined_on (by decide) _,
    failsOnUndefined_on (by decide) _,
    failsOnUndefined_on (by decide) _,
    failsOnUndefined_of_width (width_byte.andThen fun _ => width_byte.andThen fun _ => width_byte.as _) fun _ => rfl,
    failsOnUndefined_blit,
    failsOnUndefined_of_width (width_half.as _) fun _ => rfl,
    failsOnUndefined_of_width (.done _) fun _ => rfl,
    List.forall_mem_nil _⟩

/-- The op codes of R80 are those of the table. -/
theorem hostOpCodes_eq : hostOpCodes = requestRows.map (·.1) := rfl

/-- An op code with no row is not in R80, and one with a row has that row fail on just its undefined requests. -/
theorem decodeRequest_eq_none_iff (bytes : List Byte) : decodeRequest bytes = none ↔ UndefinedRequest bytes := by
  cases bytes with
  | nil => exact iff_of_true rfl (.short [] (by decide))
  | cons op rest =>
    simp only [decodeRequest, Option.map_eq_none_iff, decodeRows]
    split
    next parse hp =>
      obtain ⟨l, r, hl, -⟩ := List.lookup_eq_some_iff.1 hp
      exact requestRows_failOnUndefined (op, parse) (by rw [hl]; simp) rest
    next hn =>
      refine iff_of_true rfl (.opCode op rest ?_)
      rw [hostOpCodes_eq, List.mem_map]
      rintro ⟨row, hrow, rfl⟩
      simpa using List.lookup_eq_none_iff.1 hn row hrow

theorem step_of_undecodable {s : State} {m : Message} (hf : s.faultMark = none) (hr : s.refusedMark = false)
    (hp : s.pending = some m) (hd : decode m = none) : step s = .refused (undecodable m) := by
  simp [step, hf, hr, hp, hd]

/-- Settles O8: the undefined requests are those that no row reads, and `step` refuses what does not decode. -/
theorem undefinedRequestsRefused : Obligations.UndefinedRequestsRefused := by
  refine ⟨decodeRequest_eq_none_iff, fun s bytes rest hf hr hi hq hu => ?_⟩
  have hp : s.pending = some (.request bytes) := by simp [State.pending, hi, hq]
  have hd : decode (.request bytes) = none := (decodeRequest_eq_none_iff bytes).2 hu
  exact step_of_undecodable hf hr hp hd

end Sys2Proof

namespace Sys2Proof.Machine

/-! ## What a meaning refuses (R128, R245) -/

theorem wrcmd_refused_iff {op : Byte} {params : List Byte} {s : State} {r : Refusal} :
    exec (.wrcmd op params) s = .refused r ↔ r = .rawStateful ∧ op ∈ trackedOpcodes := by
  simp only [exec, execWrcmd]
  split
  next hm => simp [hm, eq_comm]
  next hm => simp [hm, returnOk]

theorem rdreg_refused_iff {op : Byte} {count : Word} {s : State} {r : Refusal} :
    exec (.rdreg op count) s = .refused r ↔ r = .rawStateful ∧ op ∈ trackedOpcodes := by
  simp only [exec, execRdreg]
  split
  next hm => simp [hm, eq_comm]
  next hm => simp [hm, returnOk]

theorem blit_refused_iff {sw sh x y : Half} {src : List Pixel} {s : State} {r : Refusal} :
    exec (.blit sw sh x y src) s = .refused r ↔
      r = .badRequest ∧ s.cs.mv ≠ none ∧ src.length ≠ sw.toNat * sh.toNat := by
  simp only [exec, execBlit]
  split
  next hmv => simp [hmv]
  next mv hmv =>
    split
    next hl => simp [hl, returnOk]
    next hl => simp [hmv, hl, eq_comm]

/-- Every other instruction answers a next state or a fault. -/
theorem exec_ne_refused {i : Instr} (hw : ∀ op params, i ≠ .wrcmd op params) (hr : ∀ op count, i ≠ .rdreg op count)
    (hb : ∀ sw sh x y src, i ≠ .blit sw sh x y src) (s : State) (r : Refusal) : exec i s ≠ .refused r := by
  intro h
  cases i with
  | wrcmd op params => exact hw op params rfl
  | rdreg op count => exact hr op count rfl
  | blit sw sh x y src => exact hb sw sh x y src rfl
  | setpixfmt | setorient | setframerate | setgamma | setinvctl | encode =>
    simp only [exec, execSetpixfmt, execSetorient, execSetframerate, execSetgamma, execSetinvctl, execEncode] at h
    split at h <;> cases h
  | setwin | wrpixels | flush =>
    simp only [exec, execSetwin, execWrpixels, execFlush] at h
    split at h
    · cases h
    · split at h <;> cases h
  | _ => cases h

/-- Settles O46: WRCMD, RDREG and BLIT are the instructions that can be refused. -/
theorem refusalsExactly : Obligations.RefusalsExactly := by
  intro i s r
  cases i with
  | wrcmd op params => simp [wrcmd_refused_iff]
  | rdreg op count => simp [rdreg_refused_iff]
  | blit sw sh x y src => simp [blit_refused_iff]
  | _ => simp [exec_ne_refused]

/-! ## Words written out (R81, R114) -/

/-- Settles O9: each word is the bytes its instruction is written as. -/
theorem writtenOutWordsDecode : Obligations.WrittenOutWordsDecode := ⟨rfl, rfl, rfl, rfl, rfl⟩

/-! ## The bus commands (R100 to R127) -/

/-- What a write frame alone does that tracks its command by `f`. -/
theorem frameWrite_issues (op : Byte) (params : List Byte) (f : Controller → Controller) (s : State) :
    Issues s ((frameWrite op params s).modifyCs f) (writeFrame op params) ∧
      ((frameWrite op params s).modifyCs f).cs = f s.cs ∧ ((frameWrite op params s).modifyCs f).fb = s.fb ∧
      ((frameWrite op params s).modifyCs f).panel = s.panel :=
  ⟨((frameWrite_emitted op params s).modifyCs f).issues (by simp) (by simp), by simp, by simp, by simp⟩

/-- What a read frame alone does, whatever its op code. -/
theorem frameRead_issues (op : Byte) (n : Nat) (s : State) :
    ∃ t d bytes, commandDone (frameRead op n s).2 = .next t ∧ bytes.length = n ∧ OracleAnswers s (d :: bytes) ∧
      Issues s t (readFrame op (d :: bytes)) ∧ t.cs = s.cs ∧ t.fb = s.fb ∧ t.panel = s.panel.drop (n + 1) := by
  obtain ⟨d, hd, ho⟩ := frameRead_draws op n s
  have he : Emitted s (frameRead op n s).2 (readFrame op (d :: (frameRead op n s).1)) := hd ▸ frameRead_emitted op n s
  exact ⟨_, d, _, rfl, frameRead_length op n s, ho, he.issues (by simp) (by simp), by simp, by simp, by simp⟩

/-- Settles O37: each is one read frame. -/
theorem readCommandsFrame : Obligations.ReadCommandsFrame := by
  intro i op count s h
  simp only [List.mem_cons, Prod.mk.injEq, List.not_mem_nil, or_false] at h
  obtain ⟨rfl, rfl⟩ | ⟨rfl, rfl⟩ | ⟨rfl, rfl⟩ | ⟨rfl, rfl⟩ | ⟨rfl, rfl⟩ := h <;> exact frameRead_issues _ count.toNat s

/-- Settles O38: each is one write frame. -/
theorem untrackedCommandsFrame : Obligations.UntrackedCommandsFrame := by
  intro i op params value s h
  have hx : exec i s = .next (frameWrite op params s) := by
    simp only [List.mem_cons, Prod.mk.injEq, List.not_mem_nil, or_false] at h
    rcases h with ⟨rfl, rfl, -⟩ | ⟨rfl, rfl, rfl⟩ | ⟨rfl, rfl, -⟩ | ⟨rfl, rfl, -⟩ | ⟨rfl, rfl, rfl⟩ | ⟨rfl, rfl, -⟩ |
      ⟨rfl, rfl, rfl⟩ | ⟨rfl, rfl, rfl⟩ | ⟨rfl, rfl, -⟩ | ⟨rfl, rfl, -⟩ | ⟨rfl, rfl, rfl⟩ <;> rfl
  exact ⟨_, hx, frameWrite_issues op params id s⟩

/-- Settles O39: one frame, and one flag written. -/
theorem powerCommandsTrackFlags : Obligations.PowerCommandsTrackFlags := by
  intro i events cs s h
  simp only [List.mem_cons, Prod.mk.injEq, List.not_mem_nil, or_false] at h
  obtain ⟨rfl, rfl, rfl⟩ | ⟨rfl, rfl, rfl⟩ | ⟨rfl, rfl, rfl⟩ | ⟨rfl, rfl, rfl⟩ | ⟨rfl, rfl, rfl⟩ | ⟨rfl, rfl, rfl⟩ := h
  · exact ⟨_, rfl, frameWrite_issues 0x10 [] (fun cs => { cs with sleeping := some true }) s⟩
  · exact ⟨_, rfl, (sleepOut_emitted s).issues (by simp) (by simp), by simp, by simp, by simp⟩
  · exact ⟨_, rfl, frameWrite_issues 0x28 [] (fun cs => { cs with displayOn := some false }) s⟩
  · exact ⟨_, rfl, frameWrite_issues 0x29 [] (fun cs => { cs with displayOn := some true }) s⟩
  · exact ⟨_, rfl, frameWrite_issues 0x38 [] (fun cs => { cs with idle := some false }) s⟩
  · exact ⟨_, rfl, frameWrite_issues 0x39 [] (fun cs => { cs with idle := some true }) s⟩

theorem bytes_eq_shifts (h : Half) : Half.bytes h = [(h >>> 8).setWidth 8, h.setWidth 8] := by
  simp only [Half.bytes, List.cons.injEq, and_true]
  constructor <;> (ext i hi; simp)

theorem ofByte_byte (o : Orientation) : Orientation.ofByte o.byte = o := by
  obtain ⟨my, mx, mv, ml, bgr, mh⟩ := o
  revert my mx mv ml bgr mh
  decide

/-- Settles O40: each is one frame with the parameters it tracks. -/
theorem setupCommandsTrackFields : Obligations.SetupCommandsTrackFields := by
  intro a b o s
  have hp : windowParams a b = [(a >>> 8).setWidth 8, a.setWidth 8, (b >>> 8).setWidth 8, b.setWidth 8] := by
    rw [windowParams, bytes_eq_shifts, bytes_eq_shifts]; rfl
  have ho : exec (.cmd36 o) s = .next ((frameWrite 0x36 [o.byte] s).modifyCs (.withOrientation (.ofByte o.byte))) := rfl
  rw [ofByte_byte] at ho
  rw [← hp]
  exact ⟨⟨_, rfl, frameWrite_issues 0x2A (windowParams a b) (.withWindow .col a b) s⟩,
    ⟨_, rfl, frameWrite_issues 0x2B (windowParams a b) (.withWindow .row a b) s⟩,
    ⟨_, ho, frameWrite_issues 0x36 [o.byte] (.withOrientation o) s⟩,
    ⟨_, rfl, frameWrite_issues 0x3A [s.cfg.pf16Code] (fun cs => { cs with pixfmt := some .format16 }) s⟩⟩

/-- Settles O41: the one is the software reset, the other a status read. -/
theorem resetAndStatusCommands : Obligations.ResetAndStatusCommands := by
  intro s
  constructor
  · refine ⟨_, rfl, (softwareReset_emitted s).issues (by simp) (by simp), ?_, by simp, by simp⟩
    cases h : s.cfg.unlockClearedByReset <;> simp [Controller.afterReset, h]
  · obtain ⟨d, b0, b1, b2, b3, ho, -, he, hcs⟩ := readStatus_draws s
    exact ⟨_, d, b0, b1, b2, b3, rfl, ho, he.issues (by simp) (by simp), hcs, by simp, by simp⟩

end Sys2Proof.Machine

/-! PROOFS. 40_bus_transport.md: what the two frames emit, and the three host operations built from them. -/

namespace Sys2Proof.Machine

/-! ## The direction of the data lines (R141, R144) -/

/-- DIR follows from the events alone. -/
theorem emits_dir (es : List Event) (s : State) : (emits es s).pins.dir = (levelsAfter s.pins es).dir :=
  (congrArg Pins.dir (emits_levels es s s.pins.d) :)

/-- A write frame leaves DIR as it was, whatever the other levels. -/
@[simp] theorem frameWrite_dir (op : Byte) (params : List Byte) (s : State) :
    (frameWrite op params s).pins.dir = s.pins.dir := by
  rw [frameWrite, emits_dir, writeFrame, levelsAfter_append, levelsAfter_append, levelsAfter_writes _ rfl]
  rfl

/-- A read frame ends with DIR_OUT and CS_DEASSERT, whatever the levels before. -/
@[simp] theorem frameRead_dir (op : Byte) (n : Nat) (s : State) : (frameRead op n s).2.pins.dir = .output := by
  refine (emits_dir (readFrame op (panelBytes (n + 1) s).1) _).trans ?_
  rw [readFrame, levelsAfter_append]
  rfl

/-! ## The frames (R141, R144) -/

/-- Settles O10: the frame's events are `writeFrame`. -/
theorem writeFrameEvents : Obligations.WriteFrameEvents := fun op params s =>
  ⟨writeFrame op params, rfl, writeFrame_length op params, frameWrite_emitted op params s, by simp, by simp, by simp,
    by simp, by simp, by simp⟩

/-- The events of a read frame, with the bytes it answers and the dummy byte before them. -/
theorem frameRead_emitted_dummy (op : Byte) (n : Nat) (s : State) :
    ∃ d, OracleAnswers s (d :: (frameRead op n s).1) ∧
      Emitted s (frameRead op n s).2 (readFrame op (d :: (frameRead op n s).1)) := by
  obtain ⟨d, hd, ho⟩ := frameRead_draws op n s
  exact ⟨d, ho, hd ▸ frameRead_emitted op n s⟩

/-- Settles O11: the frame's events are `readFrame` of the dummy byte and the bytes it answers. -/
theorem readFrameEvents : Obligations.ReadFrameEvents := by
  intro op n s
  obtain ⟨d, ho, he⟩ := frameRead_emitted_dummy op n s
  exact ⟨d, readFrame op (d :: (frameRead op n s).1), by simp, ho, rfl, by simp [readFrame_length], he, by simp, by simp,
    by simp, by simp, by simp, by simp⟩

/-! ## RESET (R140, R147, R148) -/

/-- The resets that the two flags ask for, the hardware reset first. -/
def flaggedResets (hw sw : Bool) (s : State) : State :=
  let s := if hw then hardwareReset s else s
  if sw then softwareReset s else s

theorem reset_next (hw sw : Bool) (s : State) :
    exec (.reset hw sw) s = .next (respond ⟨.ok, []⟩ (flaggedResets hw sw s)) := rfl

@[simp] theorem flaggedResets_fb (hw sw : Bool) (s : State) : (flaggedResets hw sw s).fb = s.fb := by
  cases hw <;> cases sw <;> simp [flaggedResets]

@[simp] theorem flaggedResets_panel (hw sw : Bool) (s : State) : (flaggedResets hw sw s).panel = s.panel := by
  cases hw <;> cases sw <;> simp [flaggedResets]

@[simp] theorem flaggedResets_responses (hw sw : Bool) (s : State) :
    (flaggedResets hw sw s).responses = s.responses := by
  cases hw <;> cases sw <;> simp [flaggedResets]

@[simp] theorem flaggedResets_pc (hw sw : Bool) (s : State) : (flaggedResets hw sw s).pc = s.pc := by
  cases hw <;> cases sw <;> simp [flaggedResets]

theorem flaggedResets_emitted (hw sw : Bool) (s : State) :
    Emitted s (flaggedResets hw sw s)
      ((if hw then hwResetEvents else []) ++ (if sw then writeFrame 0x01 [] ++ [.delay 5] else [])) := by
  have hhw : Emitted s (if hw then hardwareReset s else s) (if hw then hwResetEvents else []) := by
    cases hw
    · exact .refl s
    · exact hardwareReset_emitted s
  refine hhw.trans ?_
  cases sw
  · exact .refl _
  · exact softwareReset_emitted _

theorem afterReset_afterReset (u : Bool) (c : Controller) : (c.afterReset u).afterReset u = c.afterReset u := by
  cases u <;> rfl

/-- One reset or both leave the same Controller State. -/
theorem flaggedResets_cs {hw sw : Bool} (h : hw = true ∨ sw = true) (s : State) :
    (flaggedResets hw sw s).cs = s.cs.afterReset s.cfg.unlockClearedByReset := by
  cases hw <;> cases sw
  · simp at h
  · exact softwareReset_cs s
  · exact hardwareReset_cs s
  · simp [flaggedResets, afterReset_afterReset]

/-- `afterReset` keeps two fields alone: `inverted`, and `unlocked` where the parameter lets it. -/
theorem afterReset_eq (u : Bool) (c : Controller) :
    c.afterReset u = { Controller.reset with
      phase := .reset, inverted := c.inverted, unlocked := c.unlocked && !u } := by
  cases u <;> simp [Controller.afterReset, Controller.reset]

theorem decodeRequest_reset (hw sw : Bool) :
    decodeRequest [0x01, (if hw then 0x01 else 0x00) ||| (if sw then 0x02 else 0x00)] = some (.reset hw sw) := by
  cases hw <;> cases sw <;> rfl

/-- Settles O12: the flags choose the resets; a reserved flag bit is an undefined request. -/
theorem resetOperation : Obligations.ResetOperation := by
  refine ⟨fun hw sw s => ⟨decodeRequest_reset hw sw, _, reset_next hw sw s,
    (flaggedResets_emitted hw sw s).answers (by simp) (by simp) _, by simp, by simp, ?_, fun h => ?_⟩,
    fun f rest hf => (decodeRequest_eq_none_iff _).2 (.resetFlags f rest hf)⟩
  · rintro rfl rfl; rfl
  · exact (flaggedResets_cs h s).trans (afterReset_eq _ _)

/-! ## WRCMD and RDREG (R142, R145) -/

theorem wrcmd_of_untracked {op : Byte} (h : op ∉ trackedOpcodes) (params : List Byte) (s : State) :
    exec (.wrcmd op params) s = .next (respond ⟨.ok, []⟩ (frameWrite op params s)) := if_neg h

theorem rdreg_of_untracked {op : Byte} (h : op ∉ trackedOpcodes) (count : Word) (s : State) :
    exec (.rdreg op count) s =
      .next (respond ⟨.ok, (frameRead op count.toNat s).1⟩ (frameRead op count.toNat s).2) := if_neg h

/-- Settles O13: an untracked opcode is one write frame. -/
theorem writeCommandOperation : Obligations.WriteCommandOperation := fun op params s =>
  ⟨fun hl => decodeEncodeAgree (.wrcmd op params) (decide_eq_true hl), fun hm => wrcmd_refused_iff.2 ⟨rfl, hm⟩,
    fun hn => ⟨_, wrcmd_of_untracked hn params s, (frameWrite_emitted op params s).answers (by simp) (by simp) _,
      by simp, by simp, by simp⟩⟩

/-- Settles O14: an untracked opcode is one read frame, and its bytes are the response's data. -/
theorem readRegisterOperation : Obligations.ReadRegisterOperation := by
  refine fun op count s => ⟨decodeEncodeAgree (.rdreg op count) rfl, fun hm => rdreg_refused_iff.2 ⟨rfl, hm⟩,
    fun hn => ?_⟩
  obtain ⟨d, ho, he⟩ := frameRead_emitted_dummy op count.toNat s
  exact ⟨_, d, _, rdreg_of_untracked hn count s, by simp, ho, he.answers (by simp) (by simp) _, by simp, by simp, by simp,
    by simp⟩

end Sys2Proof.Machine

/-! PROOFS. 41_controller.md: the controller's host operations, and the unlock sequence before the privileged ones. -/

namespace Sys2Proof.Machine

/-! ## What an operation has done so far -/

/-- From `s` to `t` the events were emitted and the Controller State became `cs`; the framebuffer, the oracle's list,
the responses and the position are as they were. -/
structure Effect (s t : State) (events : List Event) (cs : Controller) : Prop extends Emitted s t events where
  cs : t.cs = cs
  fb : t.fb = s.fb
  panel : t.panel = s.panel
  responses : t.responses = s.responses
  pc : t.pc = s.pc

/-! What each shared operation adds to an effect. -/

namespace Effect

variable {s t : State} {es : List Event} {c : Controller}

theorem refl (s : State) : Effect s s [] s.cs := ⟨.refl s, rfl, rfl, rfl, rfl, rfl⟩

theorem modifyCs (h : Effect s t es c) (f : Controller → Controller) : Effect s (t.modifyCs f) es (f c) :=
  ⟨h.toEmitted.modifyCs f, congrArg f h.cs, h.fb, h.panel, h.responses, h.pc⟩

theorem frame (h : Effect s t es c) (op : Byte) (params : List Byte) :
    Effect s (frameWrite op params t) (es ++ writeFrame op params) c :=
  ⟨h.toEmitted.trans (frameWrite_emitted op params t), by simp [h.cs], by simp [h.fb], by simp [h.panel],
    by simp [h.responses], by simp [h.pc]⟩

theorem wait (h : Effect s t es c) (ms : Nat) : Effect s (delay ms t) (es ++ [.delay ms]) c :=
  ⟨h.toEmitted.trans (delay_emitted ms t), by simp [h.cs], by simp [h.fb], by simp [h.panel], by simp [h.responses],
    by simp [h.pc]⟩

theorem ofHardwareReset (s : State) :
    Effect s (hardwareReset s) hwResetEvents (s.cs.afterReset s.cfg.unlockClearedByReset) :=
  ⟨hardwareReset_emitted s, by simp, by simp, by simp, by simp, by simp⟩

theorem format (h : Effect s t es c) :
    Effect s (setFormat16 t) (es ++ writeFrame 0x3A [s.cfg.pf16Code]) { c with pixfmt := some .format16 } := by
  rw [← h.cfg]
  exact (h.frame 0x3A [t.cfg.pf16Code]).modifyCs _

theorem orientation (h : Effect s t es c) (m : Byte) :
    Effect s (writeOrientation m t) (es ++ writeFrame 0x36 [m]) (c.withOrientation (.ofByte m)) :=
  (h.frame 0x36 [m]).modifyCs _

/-- The window of one axis from 0 to the maximum extent (41_controller.md R162). -/
theorem fullWindow (h : Effect s t es c) (axis : Axis) (mv : Bool) :
    Effect s (writeFullWindow axis mv t)
      (es ++ writeFrame (axisOpcode axis) ([0x00, 0x00] ++ Half.bytes (BitVec.ofNat 16 (maxEnd s.cfg axis mv))))
      (c.withWindow axis 0 (BitVec.ofNat 16 (maxEnd s.cfg axis mv))) := by
  rw [← h.cfg]
  exact (h.frame _ _).modifyCs _

/-- The unlock sequence is sent where it is due, and leaves the flag set. -/
theorem unlock (h : Effect s t es c) :
    Effect s (ensureUnlocked t) (es ++ if c.unlocked then [] else unlockEvents) { c with unlocked := true } := by
  obtain rfl := h.cs
  exact ⟨h.toEmitted.trans (ensureUnlocked_emitted t), ensureUnlocked_cs t, by simp [h.fb], by simp [h.panel],
    by simp [h.responses], by simp [h.pc]⟩

/-- With its response an effect is what a host operation answers. -/
theorem answers (h : Effect s t es c) (r : Response) :
    Answers s (respond r t) es r ∧ (respond r t).cs = c ∧ (respond r t).fb = s.fb ∧ (respond r t).panel = s.panel :=
  ⟨h.toEmitted.answers h.responses h.pc r, h.cs, h.fb, h.panel⟩

end Effect

/-! ## The unlock sequence (R167, 70_reset_and_hazards.md R276) -/

/-- Settles O20: `ensureUnlocked` tests the flag. -/
theorem unlockSequence : Obligations.UnlockSequence := by
  refine fun s => ⟨fun h => if_pos h, fun h => ?_⟩
  have he := (Effect.refl s).unlock
  rw [h] at he
  exact ⟨he.toEmitted, he.cs, he.fb, he.panel, he.responses, he.pc⟩

/-- Where nothing sets the flag, a longer trace still holds the sequence. -/
theorem State.UnlockInv.extend {s t : State} {es : List Event} (h : s.UnlockInv) (he : Emitted s t es)
    (hu : t.cs.unlocked = true → s.cs.unlocked = true) : t.UnlockInv := fun ht =>
  he.trace ▸ (h (hu ht)).trans (List.prefix_append _ _).isInfix

/-- Once unlocked, the trace holds the sequence. -/
theorem State.UnlockInv.unlockEvents_infix {s : State} (h : s.UnlockInv) :
    unlockEvents <:+: (ensureUnlocked s).trace := by
  rw [(ensureUnlocked_emitted s).trace]
  split
  next hu => simpa using h hu
  next => exact (List.suffix_append _ _).isInfix

/-- Only the unlock sequence sets the flag. -/
theorem Piece.keeps_unlockInv {host reads : Bool} {s t : State} (k : Piece host reads s t) (h : s.UnlockInv) :
    t.UnlockInv := by
  obtain ⟨es, he⟩ := k.emitted
  cases k with
  | unlock => exact fun _ => h.unlockEvents_infix
  | window axis a b => exact h.extend he (by cases axis <;> simp)
  | _ => exact h.extend he (by simp)

theorem State.UnlockInv.take {s : State} (h : s.UnlockInv) (m : Message) : (s.take m).UnlockInv := by
  simpa [State.UnlockInv] using h

theorem step_keeps_unlockInv {s t : State} (hs : s.UnlockInv) (h : step s = .next t) : t.UnlockInv := by
  obtain ⟨-, -, ⟨rfl, -⟩ | ⟨m, i, -, -, he⟩⟩ := step_next h
  · exact hs
  · exact (exec_pieces he).keeps State.UnlockInv (fun _ _ ha k => k.keeps_unlockInv ha) (hs.take m)

/-! ## INIT (R160) -/

/-- The power-up chain up to the unlock sequence. -/
def initBeforeUnlock (s : State) : State :=
  writeOrientation s.cfg.orientDefault (writeFullWindow .row false (writeFullWindow .col false
    (frameWrite 0x13 [] (setFormat16 (hardwareReset s)))))

/-- The power-up chain from the frame rate on. -/
def initAfterUnlock (s : State) : State :=
  (displayOn (sleepOut (idleOff (frameWrite 0xA3 [0x00] s)))).modifyCs fun cs => { cs with phase := .configured }

theorem init_next (s : State) :
    exec .init s = .next (respond ⟨.ok, []⟩ (initAfterUnlock
      (if s.cfg.initUnlocks then ensureUnlocked (initBeforeUnlock s) else initBeforeUnlock s))) := rfl

/-- The Controller State before the unlock sequence: what a reset leaves, set up. -/
def initSetup (s : State) : Controller :=
  Controller.withOrientation (.ofByte s.cfg.orientDefault)
    (.withWindow .row 0 (BitVec.ofNat 16 (maxEnd s.cfg .row false))
      (.withWindow .col 0 (BitVec.ofNat 16 (maxEnd s.cfg .col false))
        { s.cs.afterReset s.cfg.unlockClearedByReset with pixfmt := some .format16 }))

theorem initSetup_unlocked (s : State) :
    (initSetup s).unlocked = (s.cs.unlocked && !s.cfg.unlockClearedByReset) := by
  simp only [initSetup, Controller.withWindow, afterReset_eq]
  rfl

theorem initBeforeUnlock_effect (s : State) :
    Effect s (initBeforeUnlock s)
      ([.rstLow, .delay 5, .rstHigh, .delay 15] ++ writeFrame 0x3A [s.cfg.pf16Code] ++ writeFrame 0x13 [] ++
        writeFrame 0x2A ([0x00, 0x00] ++ Half.bytes (BitVec.ofNat 16 (maxEnd s.cfg .col false))) ++
        writeFrame 0x2B ([0x00, 0x00] ++ Half.bytes (BitVec.ofNat 16 (maxEnd s.cfg .row false))) ++
        writeFrame 0x36 [s.cfg.orientDefault])
      (initSetup s) :=
  ((((Effect.ofHardwareReset s).format.frame 0x13 []).fullWindow .col false).fullWindow .row
    false).orientation s.cfg.orientDefault

theorem Effect.afterUnlock {s t : State} {es : List Event} {c : Controller} (h : Effect s t es c) :
    Effect s (initAfterUnlock t)
      (es ++ writeFrame 0xA3 [0x00] ++ writeFrame 0x38 [] ++ writeFrame 0x11 [] ++ [.delay 120] ++ writeFrame 0x29 [])
      { c with phase := .configured, sleeping := some false, idle := some false, displayOn := some true } :=
  (((((((h.frame 0xA3 [0x00]).frame 0x38 []).modifyCs _).frame 0x11 []).wait 120).modifyCs
    _).frame 0x29 []).modifyCs _ |>.modifyCs _

/-- INIT_UNLOCKS decides whether the unlock sequence is sent where it is due. -/
theorem Effect.unlockIf {s t : State} {es : List Event} {c : Controller} (h : Effect s t es c) (on : Bool) :
    Effect s (if on then ensureUnlocked t else t)
      (es ++ if on = true ∧ ¬c.unlocked = true then unlockEvents else []) { c with unlocked := on || c.unlocked } := by
  cases on
  · simpa using h
  · simp only [true_and, ite_not]
    exact h.unlock

/-- Settles O15: the chain's parts in their order. -/
theorem initOperation : Obligations.InitOperation := by
  refine ⟨rfl, fun s => ⟨_, init_next s, ?_⟩⟩
  have h := (((initBeforeUnlock_effect s).unlockIf s.cfg.initUnlocks).afterUnlock).answers ⟨.ok, []⟩
  rw [initSetup_unlocked] at h
  obtain ⟨ha, hcs, hfb, hpanel⟩ := h
  refine ⟨?_, hfb, hpanel, ?_⟩
  · simp only [Bool.and_eq_true, Bool.not_eq_true', ← Bool.not_eq_true] at ha
    exact ha
  · rw [hcs]
    simp only [initSetup, afterReset_eq]
    rfl

/-! ## A privileged operation comes after the unlock sequence (R168 to R170, R276) -/

/-- What a privileged operation sends of its own. -/
inductive OwnFrames : Instr → List Event → Prop
  | frameRate (value : Word) : OwnFrames (.setframerate value) (writeFrame 0xA3 [value.setWidth 8])
  | gamma (coeffs : List Word) (p0 p1 : List Byte) :
    OwnFrames (.setgamma coeffs) (writeFrame 0xF0 p0 ++ writeFrame 0xF1 p1)
  | inversion (mode colorfix : Word) (params : List Byte) :
    OwnFrames (.setinvctl mode colorfix) (writeFrame 0xB4 params)

/-- A privileged operation unlocks; then it gives up, or sends its own frames and succeeds. -/
theorem privileged_next {i : Instr} {s t : State} (hp : isPrivileged i = true) (h : exec i s = .next t) :
    t = respond ⟨.invalidArgument, []⟩ (ensureUnlocked s) ∨
      ∃ own, OwnFrames i own ∧ t.trace = (ensureUnlocked s).trace ++ own ∧
        t.responses = s.responses ++ [⟨.ok, []⟩] := by
  cases i with
  | setframerate value =>
    obtain ⟨-, rfl⟩ | ⟨-, rfl⟩ := setframerate_next h
    · exact .inr ⟨_, .frameRate value, by simp, by simp⟩
    · exact .inl rfl
  | setgamma coeffs =>
    obtain ⟨-, rfl⟩ | ⟨p0, p1, -, rfl⟩ := setgamma_next h
    · exact .inl rfl
    · exact .inr ⟨_, .gamma coeffs p0 p1, by simp, by simp⟩
  | setinvctl mode colorfix =>
    obtain ⟨-, rfl⟩ | ⟨params, -, rfl⟩ := setinvctl_next h
    · exact .inl rfl
    · exact .inr ⟨_, .inversion mode colorfix params, by simp, by simp⟩
  | _ => cases hp

/-- What INIT does before the unlock sequence keeps the flag backed by the trace. -/
theorem initBeforeUnlock_unlockInv {s : State} (h : s.UnlockInv) : (initBeforeUnlock s).UnlockInv := by
  have he := initBeforeUnlock_effect s
  refine h.extend he.toEmitted fun hu => ?_
  rw [he.cs, initSetup_unlocked, Bool.and_eq_true] at hu
  exact hu.1

/-- Settles O56: the front is the trace once unlocked; what an operation sends of its own is appended to it. -/
theorem privilegedFollowsUnlock : Obligations.PrivilegedFollowsUnlock := by
  refine ⟨fun s t => step_keeps_unlockInv, fun i s t hp hs h => ?_, fun s t hs hu h => ?_⟩
  · have hfront := (ensureUnlocked_emitted s).trace
    obtain rfl | ⟨own, ho, htrace, hr⟩ := privileged_next hp h
    · exact ⟨_, [], by simp, hfront, hs.unlockEvents_infix, .inl ⟨rfl, by simp⟩⟩
    · refine ⟨_, own, htrace, hfront, hs.unlockEvents_infix, .inr ⟨hr, ?_⟩⟩
      cases ho with
      | frameRate value => exact .inl ⟨value, rfl, rfl⟩
      | gamma coeffs p0 p1 => exact .inr (.inl ⟨coeffs, p0, p1, rfl, rfl⟩)
      | inversion mode colorfix params => exact .inr (.inr ⟨mode, colorfix, params, rfl, rfl⟩)
  · rw [init_next, if_pos hu] at h
    cases h
    have hbefore := (initBeforeUnlock_effect s).unlock
    refine ⟨_, ⟨_, hbefore.trace.symm⟩, (initBeforeUnlock_unlockInv hs).unlockEvents_infix, ?_⟩
    simpa using (Effect.refl (ensureUnlocked (initBeforeUnlock s))).afterUnlock.trace

/-! ## SETPIXFMT (R161) -/

theorem setpixfmt_unsupported {fmt : Byte} (h : fmt ≠ 0) (s : State) :
    exec (.setpixfmt fmt) s = .next (answered ⟨.unsupportedFormat, []⟩ s) := if_neg h

/-- Settles O16: `fmt` 0 is the one format; binding it fixes the byte size and the encoder. -/
theorem pixelFormatOperation : Obligations.PixelFormatOperation := by
  refine fun fmt s => ⟨rfl, ?_, fun h => setpixfmt_unsupported h s⟩
  rintro rfl
  obtain ⟨ha, hcs, hfb, hpanel⟩ := (Effect.refl s).format.answers ⟨.ok, []⟩
  exact ⟨_, rfl, ha, hcs, by rw [hcs]; rfl, fun _ _ _ => rfl, hfb, hpanel⟩

/-! ## SETWIN (R162, R163) -/

/-- A 16-bit bound as its two bytes, high byte first. -/
theorem bytes_ofInt (n : Int) :
    Half.bytes (BitVec.ofInt 16 n) = [BitVec.ofInt 8 (n / 256), BitVec.ofInt 8 (n % 256)] := by
  simp only [Half.bytes, List.cons.injEq, and_true]
  constructor <;> apply BitVec.eq_of_toNat_eq <;>
    simp only [BitVec.extractLsb'_toNat, BitVec.toNat_ofInt, Nat.shiftRight_eq_div_pow] <;> omega

theorem windowLegal_iff (start stop : Int) :
    windowLegal start stop = true ↔ 0 ≤ start ∧ start ≤ 0xFFFF ∧ stop ≤ 0xFFFF ∧ start < stop := by
  simp [windowLegal, and_assoc]

/-- R162's extents, less one where the end is inclusive. -/
theorem maxEnd_eq (cfg : Config) (axis : Axis) (mv : Bool) :
    maxEnd cfg axis mv =
      (if (axis = .col) ↔ mv = false then cfg.panelW else cfg.panelH) - if cfg.endMaxInclusive then 1 else 0 := by
  cases axis <;> cases mv <;> rfl

theorem resolveEnd_of_nonneg (axis : Axis) {stop : Word} (h : 0 ≤ stop.toInt) (s : State) :
    resolveEnd axis stop s = some stop.toInt := if_neg (not_lt.2 h)

theorem resolveEnd_of_neg (axis : Axis) {stop : Word} (h : stop.toInt < 0) (s : State) :
    resolveEnd axis stop s = s.cs.mv.map fun mv => (maxEnd s.cfg axis mv : Int) := if_pos h

theorem setwin_unset {axis : Axis} {start stop : Word} {s : State} (h : resolveEnd axis stop s = none) :
    exec (.setwin axis start stop) s = .fault .unsetState := by
  simp [exec, execSetwin, h]

theorem setwin_resolved {axis : Axis} {start stop : Word} {s : State} {stop' : Int}
    (h : resolveEnd axis stop s = some stop') :
    exec (.setwin axis start stop) s =
      if windowLegal start.toInt stop' then
        .next (respond ⟨.ok, []⟩ (writeWindow axis (BitVec.ofInt 16 start.toInt) (BitVec.ofInt 16 stop') s))
      else .next (answered ⟨.invalidArgument, []⟩ s) := by
  simp only [exec, execSetwin, h]
  rfl

theorem writeWindow_effect (axis : Axis) (a b : Half) (s : State) :
    Effect s (writeWindow axis a b s) (writeFrame (axisOpcode axis) (Half.bytes a ++ Half.bytes b))
      (s.cs.withWindow axis a b) :=
  ((Effect.refl s).frame _ _).modifyCs _

/-- Settles O17: the end is resolved, then the bounds are checked. -/
theorem windowOperation : Obligations.WindowOperation := by
  intro axis start stop s
  have hdecode := decodeEncodeAgree (.setwin axis start stop) rfl
  refine ⟨by cases axis <;> exact hdecode, fun hn hm => setwin_unset ?_, fun stop' hstop => ?_⟩
  · rw [resolveEnd_of_neg axis hn, hm]; rfl
  have hresolved : resolveEnd axis stop s = some stop' := by
    obtain ⟨hn, rfl⟩ | ⟨mv, hn, hm, rfl⟩ := hstop
    · exact resolveEnd_of_nonneg axis hn s
    · rw [resolveEnd_of_neg axis hn, hm, ← maxEnd_eq]; rfl
  rw [setwin_resolved hresolved]
  constructor
  · intro hbad
    exact if_neg fun hl => by rw [windowLegal_iff] at hl; omega
  · intro h1 h2 h3 h4
    have h := (writeWindow_effect axis (BitVec.ofInt 16 start.toInt) (BitVec.ofInt 16 stop') s).answers ⟨.ok, []⟩
    rw [bytes_ofInt, bytes_ofInt] at h
    refine ⟨_, if_pos ((windowLegal_iff _ _).2 ⟨h1, h2, h3, h4⟩), ?_⟩
    cases axis <;> exact h

/-! ## The orientation byte (R165) -/

/-- Settles O18: six bits, so 64 orientations. -/
theorem orientationByteLayout : Obligations.OrientationByteLayout := by
  refine fun o => ⟨?_, ofByte_byte o⟩
  obtain ⟨my, mx, mv, ml, bgr, mh⟩ := o
  revert my mx mv ml bgr mh
  decide

/-! ## The status word (R171, R172) -/

/-- The k-th bit of a field stands at the k-th of its positions. -/
theorem testBit_fieldAt (w : Word) (positions : List Nat) (k : Nat) :
    (fieldAt w positions).testBit k = positions[k]?.any fun i => w.getLsbD i := by
  induction positions generalizing k with
  | nil => simp [fieldAt]
  | cons i rest ih =>
    cases k with
    | zero => cases h : w.getLsbD i <;> simp [fieldAt, Nat.testBit_zero, h]
    | succ k =>
      have hhalf : fieldAt w (i :: rest) / 2 = fieldAt w rest := by
        have := Bool.toNat_le (w.getLsbD i)
        simp only [fieldAt]
        omega
      rw [Nat.testBit_add_one, hhalf, ih, List.getElem?_cons_succ]

/-- A bit of the status word is a bit of one of its bytes, the first byte highest. -/
theorem getLsbD_ofBytes (b0 b1 b2 b3 : Byte) (i : Nat) :
    (Word.ofBytes b0 b1 b2 b3).getLsbD i =
      if i < 8 then b3.getLsbD i else if i < 16 then b2.getLsbD (i - 8)
      else if i < 24 then b1.getLsbD (i - 16) else b0.getLsbD (i - 24) := by
  simp only [Word.ofBytes, BitVec.getLsbD_append]
  grind

/-- The pixel-format code of the default layout is bits 6:4 of the second byte. -/
theorem pixfmtCode_default (b0 b1 b2 b3 : Byte) :
    fieldAt (Word.ofBytes b0 b1 b2 b3) StatusLayout.default.pixfmt = (b1.extractLsb' 4 3).toNat := by
  apply Nat.eq_of_testBit_eq
  intro k
  rw [testBit_fieldAt, BitVec.testBit_toNat, BitVec.getLsbD_extractLsb']
  match k with
  | 0 | 1 | 2 => simp [StatusLayout.default, getLsbD_ofBytes]
  | k + 3 => simp [StatusLayout.default]

/-- Settles O24: the four bytes are the word's, the first one highest. -/
theorem statusSnapshot : Obligations.StatusSnapshot := by
  intro b0 b1 b2 b3
  rw [statusWord_four]
  constructor
  · rintro l _ rfl
    exact ⟨rfl, testBit_fieldAt _ _, rfl, rfl, rfl, rfl, rfl⟩
  · simp only [statusDecode, pixfmtCode_default]
    simp only [StatusLayout.default, getLsbD_ofBytes]
    rfl

/-- A status read ends with DIR_OUT. -/
theorem readStatus_dir (s : State) : (readStatus s).2.pins.dir = .output := frameRead_dir 0x09 4 s

/-- Settles O25: the four bytes read are the response's data. -/
theorem readStatusOperation : Obligations.ReadStatusOperation := by
  refine ⟨rfl, fun s => ?_⟩
  obtain ⟨d, b0, b1, b2, b3, ho, hbytes, he, hcs⟩ := readStatus_draws s
  have ha := he.answers (by simp) (by simp) ⟨.ok, (readStatus s).1⟩
  rw [hbytes] at ha
  exact ⟨_, d, b0, b1, b2, b3, by rw [← hbytes]; rfl, ho, ha, hcs, readStatus_dir s, by simp, by simp⟩

/-! ## SETORIENT (R164, R166) -/

theorem setorient_invalid {preset : Byte} (h : preset.toNat > 7) (keep : Bool) (s : State) :
    exec (.setorient preset keep) s = .next (answered ⟨.invalidArgument, []⟩ s) := if_pos h

theorem setorient_of_preset {preset : Byte} (h : preset.toNat ≤ 7) (keep : Bool) {s : State} {seen : Orientation}
    (hs : seen = (statusDecode s.cfg.statusLayout (statusWord (readStatus s).1)).orientation) :
    exec (.setorient preset keep) s =
      .next (respond ⟨.ok, []⟩
        (sendPreset (presetOrientation preset seen.ml seen.bgr seen.mh) keep (readStatus s).2)) := by
  subst hs
  have hn : ¬preset.toNat > 7 := not_lt.2 h
  simp only [exec, execSetorient, hn, ↓reduceIte, readStatus_cfg]
  rfl

/-- Memory-access-control, then both windows reset unless they are kept. -/
theorem sendPreset_effect (o : Orientation) (keep : Bool) (s : State) :
    Effect s (sendPreset o keep s)
      (writeFrame 0x36 [o.byte] ++
        (if keep then [] else
          writeFrame 0x2A ([0x00, 0x00] ++ Half.bytes (BitVec.ofNat 16 (maxEnd s.cfg .col o.mv))) ++
          writeFrame 0x2B ([0x00, 0x00] ++ Half.bytes (BitVec.ofNat 16 (maxEnd s.cfg .row o.mv)))))
      (if keep then s.cs.withOrientation o else
        ((s.cs.withOrientation o).withWindow .col 0 (BitVec.ofNat 16 (maxEnd s.cfg .col o.mv))).withWindow .row 0
          (BitVec.ofNat 16 (maxEnd s.cfg .row o.mv))) := by
  have h := (Effect.refl s).orientation o.byte
  rw [ofByte_byte, List.nil_append] at h
  cases keep
  · have hw := (h.fullWindow .col o.mv).fullWindow .row o.mv
    rw [List.append_assoc] at hw
    exact hw
  · exact h

/-- Settles O19: the status is read, then the preset is sent with the three bits that the panel answered. -/
theorem orientOperation : Obligations.OrientOperation := by
  intro preset keep s
  refine ⟨decodeEncodeAgree (.setorient preset keep) rfl, fun h => setorient_invalid h keep s, fun h => ?_⟩
  obtain ⟨d, b0, b1, b2, b3, ho, hbytes, he, hcs⟩ := readStatus_draws s
  have hx := setorient_of_preset h keep (s := s) rfl
  rw [hbytes, statusWord_four] at hx
  refine ⟨_, d, b0, b1, b2, b3, _, hx, ho, rfl, ?_⟩
  obtain ⟨hsent, hsentCs, hfb, hpanel, -, -⟩ := sendPreset_effect _ keep (readStatus s).2
  have ha := (he.trans hsent).answers (by simp) (by simp) ⟨.ok, []⟩
  rw [readStatus_cfg, ← List.append_assoc] at ha
  refine ⟨ha, hsentCs.trans ?_, by simp [hfb], by simp [hpanel]⟩
  rw [hcs, readStatus_cfg]
  cases keep <;> rfl

/-! ## The privileged operations (R167 to R170) -/

theorem frameRateLegal_iff (mask : Byte) (value : Word) :
    frameRateLegal mask value = true ↔ value.toNat ≤ 0xFF ∧ value.setWidth 8 &&& ~~~mask = 0 := by
  simp [frameRateLegal]

theorem setframerate_eq (value : Word) (s : State) :
    exec (.setframerate value) s =
      if frameRateLegal s.cfg.frMask value then
        .next (respond ⟨.ok, []⟩ (frameWrite 0xA3 [value.setWidth 8] (ensureUnlocked s)))
      else .next (respond ⟨.invalidArgument, []⟩ (ensureUnlocked s)) := by
  simp only [exec, execSetframerate, ensureUnlocked_cfg]
  rfl

/-- Settles O21: after the unlock sequence the mask decides. -/
theorem frameRateOperation : Obligations.FrameRateOperation := by
  refine fun value s => ⟨decodeEncodeAgree (.setframerate value) rfl, fun h => ?_, fun h => ?_⟩ <;>
    rw [setframerate_eq]
  · exact ⟨_, if_pos ((frameRateLegal_iff _ _).2 h), ((Effect.refl s).unlock.frame _ _).answers _⟩
  · have hl : ¬frameRateLegal s.cfg.frMask value = true := by
      rw [frameRateLegal_iff, not_and_or, not_le]; exact h
    exact ⟨_, if_neg hl, (Effect.refl s).unlock.answers _⟩

/-- Settles O22: after the unlock sequence the encoder decides. -/
theorem gammaOperation : Obligations.GammaOperation := by
  refine fun coeffs s => ⟨fun h => decodeEncodeAgree (.setgamma coeffs) (decide_eq_true h), ?_⟩
  simp only [exec, execSetgamma]
  cases Config.gammaEncode (coeffs.map BitVec.toInt) with
  | none => exact ⟨_, rfl, by simpa using (Effect.refl s).unlock.answers _⟩
  | some p =>
    obtain ⟨p0, p1⟩ := p
    exact ⟨_, rfl, by simpa using (((Effect.refl s).unlock.frame 0xF0 p0).frame 0xF1 p1).answers _⟩

/-- Settles O23: after the unlock sequence the mode and the encoder decide. -/
theorem inversionControlOperation : Obligations.InversionControlOperation := by
  refine fun mode colorfix s => ⟨decodeEncodeAgree (.setinvctl mode colorfix) rfl, fun h => ?_, fun h => ?_⟩
  · have hm : invEncode mode.toNat colorfix.toNat = Config.invPacking mode.toNat colorfix.toNat :=
      if_neg (not_lt.2 h)
    simp only [exec, execSetinvctl, hm]
    cases Config.invPacking mode.toNat colorfix.toNat with
    | none => exact ⟨_, rfl, by simpa using (Effect.refl s).unlock.answers _⟩
    | some params => exact ⟨_, rfl, ((Effect.refl s).unlock.frame 0xB4 params).answers _⟩
  · have hm : invEncode mode.toNat colorfix.toNat = none := if_pos h
    simp only [exec, execSetinvctl, hm]
    exact ⟨_, rfl, (Effect.refl s).unlock.answers _⟩

/-! ## WRPIXELS (R173) -/

theorem wrpixels_unset {s : State} (h : s.cs.pixfmt = none) (bytes : List Byte) :
    exec (.wrpixels bytes) s = .fault .unsetState := by
  simp [exec, execWrpixels, Controller.bytesize, h]

theorem wrpixels_format16 {s : State} (h : s.cs.pixfmt = some .format16) (bytes : List Byte) :
    exec (.wrpixels bytes) s =
      if bytes.length % 2 = 0 then .next (respond ⟨.ok, []⟩ (frameWrite 0x2C bytes s))
      else .next (answered ⟨.invalidArgument, []⟩ s) := by
  simp only [exec, execWrpixels, Controller.bytesize, h]
  rfl

/-- Settles O26: the format is read first, then the length. -/
theorem writePixelsOperation : Obligations.WritePixelsOperation := fun bytes s =>
  ⟨fun hl => decodeEncodeAgree (.wrpixels bytes) (decide_eq_true hl), fun h => wrpixels_unset h bytes,
    fun h hodd => by rw [wrpixels_format16 h, if_neg hodd],
    fun h heven => ⟨_, by rw [wrpixels_format16 h, if_pos heven], ((Effect.refl s).frame 0x2C bytes).answers _⟩⟩

/-! ## The power flags (R174 to R176) -/

/-- Settles O27: sleep-out waits, sleep-in does not. -/
theorem sleepOperation : Obligations.SleepOperation := by
  refine fun on s => ⟨decodeEncodeAgree (.sleep on) rfl, _, rfl, ?_⟩
  cases on
  · exact ((((Effect.refl s).frame 0x11 []).wait 120).modifyCs fun cs => { cs with sleeping := some false }).answers _
  · exact (((Effect.refl s).frame 0x10 []).modifyCs fun cs => { cs with sleeping := some true }).answers _

/-- Settles O28: the flag is written whatever the display-off opcode is. -/
theorem displayOperation : Obligations.DisplayOperation := by
  refine fun on s => ⟨decodeEncodeAgree (.display on) rfl, _, rfl, ?_⟩
  cases on
  · have h := (Effect.refl s).frame s.cfg.displayOffOpcode []
    exact (h.modifyCs fun cs => { cs with displayOn := some false }).answers _
  · exact (((Effect.refl s).frame 0x29 []).modifyCs fun cs => { cs with displayOn := some true }).answers _

/-- Settles O29: one frame for each value of the flag. -/
theorem idleOperation : Obligations.IdleOperation := by
  refine fun on s => ⟨decodeEncodeAgree (.idle on) rfl, _, rfl, ?_⟩
  cases on
  · exact (((Effect.refl s).frame 0x38 []).modifyCs fun cs => { cs with idle := some false }).answers _
  · exact (((Effect.refl s).frame 0x39 []).modifyCs fun cs => { cs with idle := some true }).answers _

end Sys2Proof.Machine

/-! PROOFS. 42_color.md: the colour conversion and ENCODE. -/

namespace Sys2Proof.Machine

/-! ## The packing (R210, R212) -/

/-- Plain RGB565 packing (R212). -/
def packRgb565 (r g b : Byte) : Pixel :=
  ((r &&& 0xF8).setWidth 16 <<< 8) ||| ((g &&& 0xFC).setWidth 16 <<< 3) ||| ((b &&& 0xF8).setWidth 16 >>> 3)

/-- The conversion is the packing of the inverted channels. -/
theorem encode565_eq_pack (r g b : Byte) : encode565 r g b = packRgb565 (0xFF - r) (0xFF - g) (0xFF - b) := rfl

/-- At 8 bits, inverting a channel is complementing its bits (R212). -/
theorem inverted_eq_not (c : Byte) : 0xFF - c = ~~~c := BitVec.allOnes_sub_eq_not c

/-- The masks keep the top 5, 6 and 5 bits, and the shifts set them side by side. -/
theorem getLsbD_packRgb565 (r g b : Byte) (i : Nat) :
    (packRgb565 r g b).getLsbD i =
      if i < 5 then b.getLsbD (3 + i) else if i < 11 then g.getLsbD (i - 3) else r.getLsbD (i - 8) := by
  obtain hi | hi := lt_or_ge i 16
  · simp only [packRgb565]
    interval_cases i <;> simp
  · rw [BitVec.getLsbD_of_ge _ _ hi, if_neg (by omega), if_neg (by omega), BitVec.getLsbD_of_ge _ _ (by omega)]

/-- The packing commutes with complement, field by field. -/
theorem packRgb565_not (r g b : Byte) : packRgb565 (~~~r) (~~~g) (~~~b) = ~~~packRgb565 r g b := by
  apply BitVec.eq_of_getLsbD_eq
  intro i hi
  rw [BitVec.getLsbD_not, getLsbD_packRgb565, getLsbD_packRgb565]
  split_ifs <;> simp [hi] <;> omega

/-- Settles O31: each field's bits are read off the packing. -/
theorem colourBitFields : Obligations.ColourBitFields := by
  intro r g b
  rw [encode565_eq_pack]
  refine ⟨BitVec.eq_of_getLsbD_eq fun i hi => ?_, BitVec.eq_of_getLsbD_eq fun i hi => ?_,
      BitVec.eq_of_getLsbD_eq fun i hi => ?_⟩ <;>
    rw [BitVec.getLsbD_extractLsb', BitVec.getLsbD_extractLsb', getLsbD_packRgb565]
  · rw [if_neg (by omega), if_neg (by omega), show 11 + i - 8 = 3 + i by omega]
  · rw [if_neg (by omega), if_pos (by omega), show 5 + i - 3 = 2 + i by omega]
  · rw [Nat.zero_add, if_pos hi]

/-- Settles O32: the channels' inversion is the complement of the packing. -/
theorem invertedRgb565 : Obligations.InvertedRgb565 := by
  intro r g b
  calc encode565 r g b
      = packRgb565 (~~~r) (~~~g) (~~~b) := by simp only [encode565_eq_pack, inverted_eq_not]
    _ = ~~~packRgb565 r g b := packRgb565_not r g b
    _ = 0xFFFF ^^^ packRgb565 r g b := BitVec.allOnes_xor.symm

/-- Settles O33: the two bits are the ends of the red field. -/
theorem colourRedBits : Obligations.ColourRedBits := by
  intro r g b
  obtain ⟨hred, -, -⟩ := colourBitFields r g b
  have hbit (i : Nat) (hi : i < 5) : (encode565 r g b).getLsbD (11 + i) = (0xFF - r).getLsbD (3 + i) := by
    simpa [hi] using congrArg (·.getLsbD i) hred
  exact ⟨hbit 4 (by decide), hbit 0 (by decide)⟩

/-! ## ENCODE (R211) -/

theorem encode_unset {s : State} (h : s.cs.pixfmt = none) (r g b : Byte) :
    exec (.encode r g b) s = .fault .unsetState := by
  simp only [exec, execEncode, h]

theorem encode_format16 {s : State} (h : s.cs.pixfmt = some .format16) (r g b : Byte) :
    exec (.encode r g b) s = .next (answered ⟨.ok, Half.bytes (encode565 r g b)⟩ s) := by
  simp only [exec, execEncode, h]
  rfl

/-- Settles O30: the format is read first; with one bound, only the response is added. -/
theorem encodeOperation : Obligations.EncodeOperation := fun r g b s =>
  ⟨decodeEncodeAgree (.encode r g b) rfl, fun h => encode_unset h r g b,
    fun h => by rw [encode_format16 h, bytes_eq_shifts]⟩

end Sys2Proof.Machine

/-! PROOFS. 43_framebuffer.md: BLIT, FILL and FLUSH. -/

namespace Sys2Proof.Machine

/-! ## BLIT (R220, R221) -/

/-- Destination pixel `(dx, dy)` lies in the source rectangle placed at `(x, y)` (R221). -/
abbrev InPlacedSource (sw sh : Nat) (x y : Int) (dx dy : Nat) : Prop :=
  x ≤ dx ∧ (dx : Int) < x + sw ∧ y ≤ dy ∧ (dy : Int) < y + sh

/-- The place in the source's row-major list of the pixel that lands on `(dx, dy)` (R221). -/
abbrev sourceIndex (sw : Nat) (x y : Int) (dx dy : Nat) : Nat := ((dy : Int) - y).toNat * sw + ((dx : Int) - x).toNat

/-- The placed rectangle's pixels are in a list of `sw` x `sh`. -/
theorem sourceIndex_lt {sw sh dx dy : Nat} {x y : Int} (h : InPlacedSource sw sh x y dx dy) :
    sourceIndex sw x y dx dy < sw * sh := by
  obtain ⟨hx, hx', hy, hy'⟩ := h
  have hrow : (((dy : Int) - y).toNat + 1) * sw ≤ sh * sw := Nat.mul_le_mul_right sw (by omega)
  rw [Nat.add_mul, Nat.mul_comm sh] at hrow
  unfold sourceIndex
  omega

/-- A row-major cell index determines its pixel. -/
theorem cell_inj {w dx dy ex ey : Nat} (hd : dx < w) (he : ex < w) (h : dy * w + dx = ey * w + ex) :
    dx = ex ∧ dy = ey := by
  obtain rfl : dx = ex := by
    simpa [Nat.mod_eq_of_lt hd, Nat.mod_eq_of_lt he] using congrArg (· % w) h
  exact ⟨rfl, Nat.eq_of_mul_eq_mul_right (Nat.zero_lt_of_lt hd) (Nat.add_right_cancel h)⟩

/-- What a BLIT writes to the cell of `(dx, dy)`: the source pixel that lands there. -/
theorem mem_blitWrites_cell {dims : Nat × Nat} {sw sh dx dy : Nat} {x y : Int} {src : List Pixel} {v : Pixel}
    (hx : dx < dims.1) (hy : dy < dims.2) :
    (dy * dims.1 + dx, v) ∈ blitWrites dims sw sh x y src ↔
      InPlacedSource sw sh x y dx dy ∧ src[sourceIndex sw x y dx dy]? = some v := by
  rw [mem_blitWrites]
  constructor
  · rintro ⟨sx, sy, hsx, hsy, h1, h2, h3, h4, hi, hv⟩
    obtain ⟨rfl, rfl⟩ := cell_inj hx (by omega) hi
    have hsrc : sourceIndex sw x y (x + sx).toNat (y + sy).toNat = sy * sw + sx := by
      rw [sourceIndex, show (((y + sy).toNat : Int) - y).toNat = sy by omega,
        show (((x + sx).toNat : Int) - x).toNat = sx by omega]
    exact ⟨⟨by omega, by omega, by omega, by omega⟩, hsrc ▸ hv⟩
  · rintro ⟨⟨h1, h2, h3, h4⟩, hv⟩
    refine ⟨((dx : Int) - x).toNat, ((dy : Int) - y).toNat, by omega, by omega, by omega, by omega, by omega, by omega,
      ?_, hv⟩
    rw [show (y + ((dy : Int) - y).toNat).toNat = dy by omega, show (x + ((dx : Int) - x).toNat).toNat = dx by omega]

/-- Every cell of the buffer after a BLIT: the source pixel that lands on it, else what it was. -/
theorem read_blit {dims : Nat × Nat} {sw sh dx dy : Nat} {x y : Int} {src : List Pixel} (m : Memory)
    (hl : src.length = sw * sh) (hx : dx < dims.1) (hy : dy < dims.2) :
    (m.writeAll (blitWrites dims sw sh x y src)).read (dy * dims.1 + dx) =
      if InPlacedSource sw sh x y dx dy then src[sourceIndex sw x y dx dy]? else m.read (dy * dims.1 + dx) := by
  have hwritten : (∃ w ∈ blitWrites dims sw sh x y src, w.1 = dy * dims.1 + dx) ↔ InPlacedSource sw sh x y dx dy := by
    constructor
    · rintro ⟨⟨_, v⟩, hw, rfl⟩
      exact ((mem_blitWrites_cell hx hy).1 hw).1
    · intro hin
      have hlt : sourceIndex sw x y dx dy < src.length := hl ▸ sourceIndex_lt hin
      exact ⟨_, (mem_blitWrites_cell hx hy).2 ⟨hin, List.getElem?_eq_getElem hlt⟩, rfl⟩
  rw [read_writeAll _ _ _ src[sourceIndex sw x y dx dy]?, if_congr hwritten rfl rfl]
  rintro ⟨_, v⟩ hw rfl
  exact ((mem_blitWrites_cell hx hy).1 hw).2.symm

/-- A BLIT leaves every cell outside the buffer as it was. -/
theorem read_blit_outside {cfg : Config} {mv : Bool} {sw sh i : Nat} {x y : Int} {src : List Pixel} (m : Memory)
    (h : cfg.cells ≤ i) : (m.writeAll (blitWrites (fbDims cfg mv) sw sh x y src)).read i = m.read i := by
  have hnone : ∀ w ∈ blitWrites (fbDims cfg mv) sw sh x y src, w.1 ≠ i := fun w hw =>
    ne_of_lt ((blitWrites_inside cfg mv sw sh x y src w hw).trans_le h)
  rw [read_writeAll _ _ _ none fun w hw he => absurd he (hnone w hw), if_neg fun ⟨w, hw, he⟩ => hnone w hw he]

theorem blit_fault_iff {sw sh x y : Half} {src : List Pixel} {s : State} {f : Fault} :
    exec (.blit sw sh x y src) s = .fault f ↔ f = .unsetState ∧ s.cs.mv = none := by
  simp only [exec, execBlit]
  split
  next hmv => simp [hmv, eq_comm]
  next mv hmv => split <;> simp [hmv, returnOk]

theorem blit_of_length {sw sh x y : Half} {src : List Pixel} {s : State} {mv : Bool} (hmv : s.cs.mv = some mv)
    (hl : src.length = sw.toNat * sh.toNat) :
    exec (.blit sw sh x y src) s = .next (respond ⟨.ok, []⟩
      (s.setFb (s.fb.writeAll (blitWrites (fbDims s.cfg mv) sw.toNat sh.toNat x.toInt y.toInt src)))) := by
  simp only [exec, execBlit, hmv, if_pos hl]
  rfl

/-- Settles O34: MV is read first, then the length; a cell of the buffer is written by the one source pixel that lands
on it. -/
theorem blitOperation : Obligations.BlitOperation := by
  refine fun sw sh x y src s => ⟨fun hl => decodeEncodeAgree (.blit sw sh x y src) (decide_eq_true hl),
    fun h => blit_fault_iff.2 ⟨rfl, h⟩, fun hmv hl => blit_refused_iff.2 ⟨rfl, hmv, hl⟩, fun mv hmv hl => ?_⟩
  exact ⟨_, (fbDims s.cfg mv).1, (fbDims s.cfg mv).2, blit_of_length hmv hl, rfl, by cases mv <;> rfl,
    by cases mv <;> rfl, fun dx dy hx hy => read_blit s.fb hl hx hy, fun i hi => read_blit_outside s.fb hi⟩

/-! ## FILL (R222) -/

/-- Settles O35: the memory becomes the N filled cells, and one within its N cells had no other. -/
theorem fillOperation : Obligations.FillOperation := by
  refine fun color s => ⟨decodeEncodeAgree (.fill color) rfl, _, rfl, rfl, fun i hi => ?_, fun hinside i hi => ?_⟩
  · exact (read_filled s.cfg.cells color i).trans (if_pos hi)
  · calc (Memory.filled s.cfg.cells color).read i
        = none := (read_filled s.cfg.cells color i).trans (if_neg (not_lt.2 hi))
      _ = s.fb.read i := (read_of_not_mem s.fb i fun c hc => ne_of_lt ((hinside c hc).trans_le hi)).symm

/-! ## FLUSH (R223, R224) -/

/-- Asking for each index of a list in turn gives the list. -/
theorem filterMap_range_length {α : Type} (l : List α) (f : Nat → Option α) (h : ∀ i, i < l.length → f i = l[i]?) :
    (List.range l.length).filterMap f = l := by
  induction l generalizing f with
  | nil => rfl
  | cons a l ih =>
    have htail := ih (f ∘ Nat.succ) fun i hi => h (i + 1) (Nat.succ_lt_succ hi)
    rw [List.length_cons, List.range_succ_eq_map, List.filterMap_cons_some (h 0 (Nat.succ_pos _)), List.filterMap_map,
      htail]

/-- The serialization of a pixel, as shifts (R224). -/
theorem pixelBytes_eq_shifts (order : ByteOrder) (v : Pixel) :
    pixelBytes order v =
      match order with
      | .be => [(v >>> 8).setWidth 8, v.setWidth 8]
      | .le => [v.setWidth 8, (v >>> 8).setWidth 8] := by
  have hbe : pixelBytes .be v = [(v >>> 8).setWidth 8, v.setWidth 8] := bytes_eq_shifts v
  cases order with
  | be => exact hbe
  | le => exact congrArg List.reverse hbe

theorem flush_fault_iff {s : State} {f : Fault} :
    exec .flush s = .fault f ↔
      (f = .unsetState ∧ s.cs.pixfmt = none) ∨
        (f = .unwrittenPixel ∧ s.cs.pixfmt ≠ none ∧ ∃ i, i < s.cfg.cells ∧ s.fb.read i = none) := by
  have hall : s.fb.allWritten s.cfg.cells = true ↔ ¬∃ i, i < s.cfg.cells ∧ s.fb.read i = none := by
    simp [allWritten_iff]
  cases hf : s.cs.pixfmt with
  | none => simp [exec, execFlush, Controller.bytesize, hf, eq_comm]
  | some fmt =>
    simp only [exec, execFlush, Controller.bytesize, hf, Option.map_some, hall]
    split
    next hw => simp [hw, returnOk]
    next hw => simp [not_not.1 hw, eq_comm (a := f)]

theorem flush_of_written {s : State} (hf : s.cs.pixfmt ≠ none) (hw : ∀ i, i < s.cfg.cells → s.fb.read i ≠ none) :
    exec .flush s =
      .next (respond ⟨.ok, []⟩ (frameWrite 0x2C (flushBytes s.cfg.pixelByteOrder s.fb s.cfg.cells) s)) := by
  obtain ⟨fmt, hfmt⟩ := Option.ne_none_iff_exists'.1 hf
  simp only [exec, execFlush, Controller.bytesize, hfmt, Option.map_some, (allWritten_iff _ _).2 hw]
  rfl

/-- Settles O36: the format is read first, then the cells; once all are written the frame carries each of them. -/
theorem flushOperation : Obligations.FlushOperation := by
  refine ⟨rfl, fun s => ⟨fun hf => flush_fault_iff.2 (.inl ⟨rfl, hf⟩),
    fun hf hi => flush_fault_iff.2 (.inr ⟨rfl, hf, hi⟩), fun px hf hn hpx => ?_⟩⟩
  have hwritten : ∀ i, i < s.cfg.cells → s.fb.read i ≠ none := fun i hi => by
    have hlt : i < px.length := hn ▸ hi
    simp [hpx i hlt, hlt]
  have hbytes : flushBytes s.cfg.pixelByteOrder s.fb s.cfg.cells = px.flatMap (pixelBytes s.cfg.pixelByteOrder) := by
    rw [flushBytes, Config.cells, ← hn, filterMap_range_length px s.fb.read hpx]
  refine ⟨_, flush_of_written hf hwritten, ?_⟩
  simp only [hbytes, funext (pixelBytes_eq_shifts s.cfg.pixelByteOrder)]
  exact ((Effect.refl s).frame 0x2C _).answers _

end Sys2Proof.Machine

/-! PROOFS. 60_exceptions.md: which errors and faults an instruction raises, what an error leaves unchanged, and the
wait for a request (70_reset_and_hazards.md R270). -/

namespace Sys2Proof.Machine

/-! ## How an instruction ends (R240 to R242) -/

/-- The error that an instruction's own check raises (R240, R241). -/
def errorOf (s : State) : Instr → Option Status
  | .setpixfmt fmt => if fmt = 0 then none else some .unsupportedFormat
  | .setwin axis start stop =>
    (resolveEnd axis stop s).bind fun stop' => if windowLegal start.toInt stop' then none else some .invalidArgument
  | .setorient preset _ => if preset.toNat > 7 then some .invalidArgument else none
  | .setframerate value => if frameRateLegal s.cfg.frMask value then none else some .invalidArgument
  | .setgamma coeffs =>
    if (Config.gammaEncode (coeffs.map BitVec.toInt)).isNone then some .invalidArgument else none
  | .setinvctl mode colorfix =>
    if (invEncode mode.toNat colorfix.toNat).isNone then some .invalidArgument else none
  | .wrpixels bytes => if bytes.length % 2 = 0 then none else some .invalidArgument
  | _ => none

/-- How an instruction that answers a next state ends: a bus command with no response; a host operation with OK, or with
an error once it has unlocked, where it is privileged, and done nothing else. -/
inductive Ending (i : Instr) (s : State) : State → Prop
  | issued {t : State} (he : errorOf s i = none) (hr : t.responses = s.responses) : Ending i s t
  | ok {u : State} (data : List Byte) (he : errorOf s i = none) (hr : u.responses = s.responses) :
    Ending i s (respond ⟨.ok, data⟩ u)
  | error (e : Status) (he : errorOf s i = some e) :
    Ending i s (respond ⟨e, []⟩ (if isPrivileged i then ensureUnlocked s else s))

theorem Piece.command_responses {reads : Bool} {s t : State} (k : Piece false reads s t) :
    t.responses = s.responses := by
  cases k with
  | hardwareReset hh | unlock hh | fb _ hh | configured hh | response _ hh => cases hh
  | _ => simp

/-- A bus command gives no response (log 7). -/
theorem command_responses {i : Instr} {s t : State} (hc : isHostOp i = false) (h : exec i s = .next t) :
    t.responses = s.responses :=
  (hc ▸ exec_pieces h).keeps (·.responses = s.responses) (fun _ _ ha k => k.command_responses.trans ha) rfl

/-- FORMAT16, the one format, has two bytes a pixel (42_color.md R215). -/
theorem bytesize_eq_two {cs : Controller} {size : Nat} (h : cs.bytesize = some size) : size = 2 := by
  obtain ⟨fmt, -, rfl⟩ := Option.map_eq_some_iff.1 h
  cases fmt
  rfl

theorem exec_ends {i : Instr} {s t : State} (h : exec i s = .next t) : Ending i s t := by
  cases i with
  | reset hw sw => cases h; cases hw <;> cases sw <;> exact .ok _ rfl (by simp)
  | wrcmd op ps => obtain ⟨-, rfl⟩ := wrcmd_next h; exact .ok _ rfl (by simp)
  | rdreg op n => obtain ⟨-, rfl⟩ := rdreg_next h; exact .ok _ rfl (by simp)
  | init => cases h; exact .ok _ rfl (by cases s.cfg.initUnlocks <;> simp)
  | setpixfmt fmt =>
    obtain ⟨hf, rfl⟩ | ⟨hf, rfl⟩ := setpixfmt_next h
    · exact .ok _ (if_pos hf) (by simp)
    · exact .error _ (if_neg hf)
  | setwin axis start stop =>
    obtain ⟨stop', hstop, ⟨hl, rfl⟩ | ⟨hl, rfl⟩⟩ := setwin_next h
    · exact .ok _ (by simp [errorOf, hstop, hl]) (by simp)
    · exact .error _ (by simp [errorOf, hstop, hl])
  | setorient preset keep =>
    obtain ⟨hp, rfl⟩ | ⟨hp, _, _, -, -, rfl⟩ := setorient_next h
    · exact .error _ (if_pos hp)
    · exact .ok _ (if_neg (not_lt.2 hp)) (by simp)
  | setframerate value =>
    obtain ⟨hl, rfl⟩ | ⟨hl, rfl⟩ := setframerate_next h
    · exact .ok _ (if_pos hl) (by simp)
    · exact .error _ (by simp [errorOf, hl])
  | setgamma coeffs =>
    obtain ⟨hg, rfl⟩ | ⟨_, _, hg, rfl⟩ := setgamma_next h
    · exact .error _ (by simp [errorOf, hg])
    · exact .ok _ (by simp [errorOf, hg]) (by simp)
  | setinvctl mode colorfix =>
    obtain ⟨hi, rfl⟩ | ⟨_, hi, rfl⟩ := setinvctl_next h
    · exact .error _ (by simp [errorOf, hi])
    · exact .ok _ (by simp [errorOf, hi]) (by simp)
  | rdstatus => obtain rfl := rdstatus_next h; exact .ok _ rfl (by simp)
  | wrpixels bytes =>
    obtain ⟨size, hz, hl⟩ := wrpixels_next h
    obtain rfl := bytesize_eq_two hz
    obtain ⟨hl, rfl⟩ | ⟨hl, rfl⟩ := hl
    · exact .ok _ (if_pos hl) (by simp)
    · exact .error _ (if_neg hl)
  | sleep on | display on | idle on => cases h; cases on <;> exact .ok _ rfl (by simp)
  | encode r g b => obtain ⟨_, -, rfl⟩ := encode_next h; exact .ok _ rfl (by simp)
  | blit sw sh x y src => obtain ⟨_, -, -, rfl⟩ := blit_next h; exact .ok _ rfl rfl
  | fill color => cases h; exact .ok _ rfl rfl
  | flush => obtain ⟨-, -, rfl⟩ := flush_next h; exact .ok _ rfl (by simp)
  | _ => exact .issued rfl (command_responses rfl h)

@[simp] theorem unlockIfPrivileged_responses (i : Instr) (s : State) :
    (if isPrivileged i then ensureUnlocked s else s).responses = s.responses := by
  split <;> simp

/-- An error response is the one that the instruction's check raises; before it no more was done than a privileged
operation's unlock sequence. -/
theorem errorOf_of_response {i : Instr} {s t : State} {r : Response} (h : exec i s = .next t)
    (hr : t.responses = s.responses ++ [r]) (hs : r.status ≠ .ok) :
    errorOf s i = some r.status ∧ t = respond r (if isPrivileged i then ensureUnlocked s else s) := by
  cases exec_ends h with
  | issued _ hsame => simp [hsame] at hr
  | ok data _ hok =>
    obtain rfl : (⟨.ok, data⟩ : Response) = r := by simpa [hok] using hr
    exact absurd rfl hs
  | error e he =>
    obtain rfl : (⟨e, []⟩ : Response) = r := by simpa using hr
    exact ⟨he, rfl⟩

theorem response_of_errorOf {i : Instr} {s t : State} {e : Status} (h : exec i s = .next t)
    (he : errorOf s i = some e) : t.responses = s.responses ++ [⟨e, []⟩] := by
  cases exec_ends h with
  | issued hn | ok _ hn => simp [hn] at he
  | error e' he' =>
    obtain rfl : e' = e := by simpa [he'] using he
    simp

/-- Settles O43: an error leaves the state as it was, or as the unlock sequence left it. -/
theorem errorsHaveNoSideEffects : Obligations.ErrorsHaveNoSideEffects := by
  intro i s t r h hr hs
  obtain ⟨-, rfl⟩ := errorOf_of_response h hr hs
  exact ⟨fun hp => by rw [hp]; rfl, fun hp => by rw [hp]; exact (Effect.refl s).unlock.answers r⟩

/-! ## InvalidArgument (R241) -/

theorem windowLegal_eq_false_iff (start stop : Int) :
    windowLegal start stop = false ↔ start < 0 ∨ start > 0xFFFF ∨ stop > 0xFFFF ∨ start ≥ stop := by
  rw [← Bool.not_eq_true, windowLegal_iff]
  omega

theorem frameRateLegal_eq_false_iff (mask : Byte) (value : Word) :
    frameRateLegal mask value = false ↔ value.toNat > 0xFF ∨ value.setWidth 8 &&& ~~~mask ≠ 0 := by
  rw [← Bool.not_eq_true, frameRateLegal_iff, not_and_or, not_le]

theorem invEncode_eq_none_iff (mode colorfix : Nat) :
    invEncode mode colorfix = none ↔ mode > 4 ∨ Config.invPacking mode colorfix = none := by
  unfold invEncode
  split <;> simp [*]

/-- Settles O44: the table's rows are the checks that raise it. -/
theorem invalidArgumentExactly : Obligations.InvalidArgumentExactly := by
  intro i s t h
  have hraised : t.responses = s.responses ++ [⟨.invalidArgument, []⟩] ↔ errorOf s i = some .invalidArgument :=
    ⟨fun hr => (errorOf_of_response h hr (by decide)).1, response_of_errorOf h⟩
  rw [hraised]
  cases i with
  | setwin axis start stop => simp [errorOf, Option.bind_eq_some_iff, windowLegal_eq_false_iff]
  | setframerate value => simp [errorOf, frameRateLegal_eq_false_iff]
  | setinvctl mode colorfix => simp [errorOf, ← invEncode_eq_none_iff]
  | _ => simp [errorOf]

/-! ## Faults (R243, R244) -/

/-- The instructions that read a value that may be UNSET or UNWRITTEN. -/
def mayFault : Instr → Bool
  | .setwin _ _ _ | .wrpixels _ | .encode _ _ _ | .blit _ _ _ _ _ | .flush => true
  | _ => false

/-- Only a negative end needs MV (R163). -/
theorem resolveEnd_eq_none_iff (axis : Axis) (stop : Word) (s : State) :
    resolveEnd axis stop s = none ↔ stop.toInt < 0 ∧ s.cs.mv = none := by
  rcases lt_or_ge stop.toInt 0 with hn | hn
  · simp [resolveEnd_of_neg axis hn, hn]
  · simp [resolveEnd_of_nonneg axis hn, hn]

theorem setwin_fault_iff {axis : Axis} {start stop : Word} {s : State} {f : Fault} :
    exec (.setwin axis start stop) s = .fault f ↔ f = .unsetState ∧ stop.toInt < 0 ∧ s.cs.mv = none := by
  rw [← resolveEnd_eq_none_iff axis]
  cases hstop : resolveEnd axis stop s with
  | none => simp [setwin_unset hstop, eq_comm]
  | some stop' => rw [setwin_resolved hstop]; split <;> simp

theorem wrpixels_fault_iff {bytes : List Byte} {s : State} {f : Fault} :
    exec (.wrpixels bytes) s = .fault f ↔ f = .unsetState ∧ s.cs.pixfmt = none := by
  cases hf : s.cs.pixfmt with
  | none => simp [wrpixels_unset hf, eq_comm]
  | some fmt => cases fmt; rw [wrpixels_format16 hf]; split <;> simp

theorem encode_fault_iff {r g b : Byte} {s : State} {f : Fault} :
    exec (.encode r g b) s = .fault f ↔ f = .unsetState ∧ s.cs.pixfmt = none := by
  cases hf : s.cs.pixfmt with
  | none => simp [encode_unset hf, eq_comm]
  | some fmt => cases fmt; simp [encode_format16 hf]

theorem exec_ne_fault {i : Instr} (hm : mayFault i = false) (s : State) (f : Fault) : exec i s ≠ .fault f := by
  intro h
  cases i with
  | setwin | wrpixels | encode | blit | flush => cases hm
  | wrcmd | rdreg | setpixfmt | setorient | setframerate | setgamma | setinvctl =>
    simp only [exec, execWrcmd, execRdreg, execSetpixfmt, execSetorient, execSetframerate, execSetgamma,
      execSetinvctl] at h
    split at h <;> cases h
  | _ => cases h

/-- Settles O45: five instructions may fault; FLUSH reads the format before the cells. -/
theorem faultsExactly : Obligations.FaultsExactly := by
  intro i s f
  cases i with
  | setwin axis start stop => simp [setwin_fault_iff, and_comm]
  | wrpixels bytes => simp [wrpixels_fault_iff]
  | encode r g b => simp [encode_fault_iff]
  | blit sw sh x y src => simp [blit_fault_iff]
  | flush => simp [flush_fault_iff, Config.cells]
  | _ => exact iff_of_false (exec_ne_fault rfl s f) (by simp)

/-! ## Nothing to do (70_reset_and_hazards.md R270; log 12) -/

/-- Settles O4: nothing is pending. -/
theorem blockWaitsForRequest : Obligations.BlockWaitsForRequest := by
  intro s hf hr hi hq
  have hnone : s.pending = none := by simp [State.pending, hi, hq]
  simp [step, hf, hr, hnone]

end Sys2Proof.Machine
